-- ==== Sys2Proof/Word.lean ====
section
/-! DEFINITION. The words of the FPL-1608 model: bytes, the step stamp, the small index types of 00_scope.md
(lines, channels, slots, patterns), and `Tab`, a table of fixed size held as plain data. -/

namespace Sys2Proof

/-- A byte of a frame. -/
abbrev Byte := BitVec 8

/-- The step stamp: a 32-bit count of steps, wrapping to 0 (R31). -/
abbrev Stamp := BitVec 32

/-- A line number, 0-15. -/
abbrev LineNo := Fin 16

/-- A ringing frequency of the cabinet supply, 0-3. -/
abbrev Channel := Fin 4

/-- A party slot: slot number n of the spec, 1-8, is the index n - 1. -/
abbrev Slot := Fin 8

/-- A cadence pattern number, 0-31. -/
abbrev PatternNo := Fin 32

/-- A dialled digit, 0-9. -/
abbrev Digit := Fin 10

/-- A table with one value for each index below `n`: plain data of a fixed size. -/
structure Tab (n : Nat) (α : Type) where
  items : List α
  size : items.length = n
deriving DecidableEq, Repr

namespace Tab

variable {n : Nat} {α : Type}

/-- The value at index `i`. -/
def get (t : Tab n α) (i : Fin n) : α := t.items[i.val]'(t.size.symm ▸ i.isLt)

/-- The table with `a` at index `i`. -/
def set (t : Tab n α) (i : Fin n) (a : α) : Tab n α :=
  ⟨t.items.set i.val a, by rw [List.length_set, t.size]⟩

/-- The table whose value at `i` is `f i`. -/
def build (f : Fin n → α) : Tab n α := ⟨List.ofFn f, List.length_ofFn⟩

/-- The table with the same value everywhere. -/
def fill (a : α) : Tab n α := ⟨List.replicate n a, List.length_replicate⟩

@[simp] theorem get_set_self (t : Tab n α) (i : Fin n) (a : α) : (t.set i a).get i = a := by
  simp [get, set]

theorem get_set_ne (t : Tab n α) {i j : Fin n} (a : α) (h : j ≠ i) : (t.set i a).get j = t.get j := by
  have h' : i.val ≠ j.val := fun e => h (Fin.ext e.symm)
  simp [get, set, h']

theorem get_set (t : Tab n α) (i j : Fin n) (a : α) :
    (t.set i a).get j = if j = i then a else t.get j := by
  by_cases h : j = i
  · subst h; simp
  · rw [if_neg h, get_set_ne t a h]

@[simp] theorem get_build (f : Fin n → α) (i : Fin n) : (build f).get i = f i := by
  simp [get, build]

@[simp] theorem get_fill (a : α) (i : Fin n) : (fill a : Tab n α).get i = a := by
  simp [get, fill]

/-- Two tables with the same values are the same table. -/
theorem ext_get {t u : Tab n α} (h : ∀ i, t.get i = u.get i) : t = u := by
  obtain ⟨a, ha⟩ := t
  obtain ⟨b, hb⟩ := u
  congr
  apply List.ext_getElem (by omega)
  intro i h1 h2
  exact h ⟨i, by omega⟩

end Tab

end Sys2Proof
end

