-- ==== Sys2Proof/Syntax.lean ====
section
/-! DEFINITION. The commands of the FPL-1608 as a block: one constructor of `Instr` for each row of
spec/opcode_table.json. A host command carries the tag and the payload bytes of its frame (10_message_formats.md);
a scan carries the line and the readings of its line circuit; a step event carries the order in which the sender
takes the works that the spec leaves unordered (R31). -/

namespace Sys2Proof

/-- The four baud rates of the rate straps (R175, R193). -/
inductive Rate where
  | b9600 | b19200 | b38400 | b57600
deriving DecidableEq, Repr

/-- What a line circuit gives at one scan (00_scope.md, External side). Which of the quantities are valid depends
on the line drive in force; the scan uses those that its work needs. -/
structure Reading where
  /-- the present indication -/
  present : Bool
  /-- the loop DC current, in 0.1 mA -/
  loop : Nat
  /-- the AC ringing current, during ringing -/
  ac : Nat
  /-- the DC component of the loop current, during ringing -/
  dc : Nat
  /-- the tip-to-ground current, during a party test -/
  tip : Nat
  /-- the ring-to-ground current, during a party test -/
  ring : Nat
deriving DecidableEq, Repr

/-- The works that a step event hands to the blocks (R31). Works of different blocks take no order among them; the
arbiter's own work at a boundary is one work, whose parts R132 orders. -/
inductive Work where
  /-- the line plan: activation of a pending commit at a frame boundary (R16) -/
  | activation (l : LineNo)
  /-- the call controller: the alarm count at a frame boundary (R85) -/
  | alarmCount (l : LineNo)
  /-- the calibrator: the wait count at a frame boundary (R166) -/
  | calWait (l : LineNo)
  /-- the arbiter: its work at a frame boundary (R132) -/
  | arbiter
  /-- the call controller: the call timer at a step event (R67) -/
  | callTimer (l : LineNo)
  /-- the call controller: a pending alarm at a step event (R84) -/
  | pendingAlarm (l : LineNo)
  /-- the ring engine: the phase of a placed line for the step that begins (R149) -/
  | ring (l : LineNo)
deriving DecidableEq, Repr

/-- The commands, in the order of spec/opcode_table.json. -/
inductive Instr where
  /-- HARD_RESET: power-on or RESET_N, with the rate that the straps show as it ends. -/
  | hardReset (straps : Rate)
  | deviceStatus (tag : Byte) (payload : List Byte)
  | softReset (tag : Byte) (payload : List Byte)
  | reportMask (tag : Byte) (payload : List Byte)
  | timersSet (tag : Byte) (payload : List Byte)
  | timebaseSet (tag : Byte) (payload : List Byte)
  | supplySet (tag : Byte) (payload : List Byte)
  | supplyTiming (tag : Byte) (payload : List Byte)
  | arbiterSet (tag : Byte) (payload : List Byte)
  | arbiterRead (tag : Byte) (payload : List Byte)
  | partyWrite (tag : Byte) (payload : List Byte)
  | partyRead (tag : Byte) (payload : List Byte)
  | alarmIdentity (tag : Byte) (payload : List Byte)
  | planCommit (tag : Byte) (payload : List Byte)
  | planDiscard (tag : Byte) (payload : List Byte)
  | lineOptions (tag : Byte) (payload : List Byte)
  | lineLevels (tag : Byte) (payload : List Byte)
  | lineLoads (tag : Byte) (payload : List Byte)
  | lineLock (tag : Byte) (payload : List Byte)
  | numberingSet (tag : Byte) (payload : List Byte)
  | numberingRead (tag : Byte) (payload : List Byte)
  | lineStatus (tag : Byte) (payload : List Byte)
  | callRecordRead (tag : Byte) (payload : List Byte)
  | cadenceOpen (tag : Byte) (payload : List Byte)
  | cadencePut (tag : Byte) (payload : List Byte)
  | cadenceStore (tag : Byte) (payload : List Byte)
  | cadenceRead (tag : Byte) (payload : List Byte)
  | cadenceClear (tag : Byte) (payload : List Byte)
  | dialplanWrite (tag : Byte) (payload : List Byte)
  | dialplanRead (tag : Byte) (payload : List Byte)
  | ringParty (tag : Byte) (payload : List Byte)
  | ringCancel (tag : Byte) (payload : List Byte)
  | connect (tag : Byte) (payload : List Byte)
  | reject (tag : Byte) (payload : List Byte)
  | disconnect (tag : Byte) (payload : List Byte)
  | lineRelease (tag : Byte) (payload : List Byte)
  | alarmRing (tag : Byte) (payload : List Byte)
  | alarmStop (tag : Byte) (payload : List Byte)
  | testAccess (tag : Byte) (payload : List Byte)
  | testRelease (tag : Byte) (payload : List Byte)
  | calibrate (tag : Byte) (payload : List Byte)
  | calibrateCancel (tag : Byte) (payload : List Byte)
  /-- BAD_KIND: a good frame whose kind is no command kind. -/
  | badKind (kind : Byte) (tag : Byte) (payload : List Byte)
  /-- SCAN: one scan of line `l` with the readings `r`. -/
  | scan (l : LineNo) (r : Reading)
  /-- OFF_HOOK: the scan of line `l` at which the off-hook event is given. -/
  | offHook (l : LineNo) (r : Reading)
  /-- ON_HOOK: the scan of line `l` at which the on-hook event is given. -/
  | onHook (l : LineNo) (r : Reading)
  /-- DIGIT_COMPLETE: the scan of line `l` at which a digit completes. -/
  | digitComplete (l : LineNo) (r : Reading)
  /-- PARTY_TEST_RESULT: the third scan of the party test of line `l`. -/
  | partyTestResult (l : LineNo) (r : Reading)
  /-- TRACKING_WINDOW_CLOSE: the hundredth tracking scan of line `l`. -/
  | trackingWindowClose (l : LineNo) (r : Reading)
  /-- STEP_EVENT: a step event. Its works are taken in the order `first`, then the others in the model's order; those
  in `held` are left to be taken by their own commands. -/
  | stepEvent (first held : List Work)
  | fsyncPulse
  /-- FOLLOWER_WINDOW_UNMET: the step event at which the window of a boundary closes unmet. -/
  | followerWindowUnmet (first held : List Work)
  | callTimerExpiry (l : LineNo)
  | pendingAlarmStart (l : LineNo)
  | alarmCountEnd (l : LineNo)
  | planActivation (l : LineNo)
  | eviction
  | queueWalk
  | ringDelayed (l : LineNo)
  | warmUpEnd
  | standbyTimeout
  | faultAssertion (c : Channel)
  | faultRelease (c : Channel)
  /-- RING_TRIP: the scan of line `l` at which a ring trip is found. -/
  | ringTrip (l : LineNo) (r : Reading)
  /-- LEAK_COMPLETE: the hundredth LEAK scan of the calibration run of line `l`. -/
  | leakComplete (l : LineNo) (r : Reading)
  | calibrationWaitLimit (l : LineNo)
  /-- BYTE_RECEIVED: a character on RXD, with whether its stop bit was good. -/
  | byteReceived (b : Byte) (stopGood : Bool)
  | gap
  | frameSent
  /-- FIRST_FAULT_SAMPLE: the first sample of SUPFLT0-SUPFLT3, bit c for channel c. -/
  | firstFaultSample (inputs : BitVec 4)
deriving DecidableEq, Repr

end Sys2Proof
end

