-- ==== Sys2Proof/Decode.lean ====
section
/-! DEFINITION. The table spec/opcode_table.json gives no row any bits, so no word spells a command: the host's
words travel as frames, which the link assembles byte by byte (Machine/Link.lean). -/

namespace Sys2Proof

/-- The command that a word of `nbits` bits spells by the table's bits: none, for no row has bits. -/
def decodeTableWord (_nbits _w : Nat) : Option Instr := none

end Sys2Proof
end

