-- ==== Sys2Proof/Config.lean ====
section
/-! DEFINITION. What is fixed for the device: the capacities and limits of 00_scope.md. The spec leaves no result
undefined, so there is no free value here; what it leaves open is an order of events, carried by the commands. -/

namespace Sys2Proof.Config

/-- Frames the intake queue can hold (R178). -/
def intakeLimit : Nat := 4

/-- Replies the reply queue can hold (R179). -/
def replyLimit : Nat := 4

/-- The longest payload of a frame (R176). -/
def payloadLimit : Nat := 60

/-- The largest loop current reading (00_scope.md, External side). -/
def readingLimit : Nat := 1023

/-- The largest value of a two-byte quantity of a payload (R192). -/
def twoByteLimit : Nat := 65535

/-- Digits the digit buffer and the outgoing digit list hold (R62). -/
def digitLimit : Nat := 16

end Sys2Proof.Config
end

