-- ==== Sys2Proof/Machine/Types.lean ====
section
/-! DEFINITION. The types of the block's state, block by block, with the spec's names (R1, R10, R22, R24, R31, R43,
R52, R62, R92, R97, R120, R124, R148, R162, R175). All of it is plain data. -/

namespace Sys2Proof.Machine

/-! ### Names -/

/-- The side of the pair (R10). -/
inductive Side where
  | tip | ring | bridged
deriving DecidableEq, Repr

/-- The call states (R62). -/
inductive CallState where
  | disabled | idle | ident | dial | exchWait | exchange | termRing | revertTone | revertRing | revertCheck
  | revertTalk | alarmRing | reorder | lockout | test | calibrating
deriving DecidableEq, Repr

/-- The states of the hook machine (R43); `brk` is BREAK. -/
inductive HookState where
  | onhook | qualify | offhook | brk
deriving DecidableEq, Repr

/-- The end causes of a call record (R92). -/
inductive EndCause where
  | normal | abandoned | noMatch | badDigit | barred | unassigned | notSameLine | notAccepted | self | noLoad
  | noHangup | noAnswer | earlyLift | noExchange | rejected | canceled | released | disabled | alarmEnd
deriving DecidableEq, Repr

/-- The party-test results (R53); `neither` is NONE. -/
inductive TestResult where
  | tip | ring | both | neither
deriving DecidableEq, Repr

/-- The kinds of call record (R92). -/
inductive RecordKind where
  | originated | revert | terminated | alarm
deriving DecidableEq, Repr

/-- The manner of an answer (R78, R108). -/
inductive Manner where
  | trip | silent
deriving DecidableEq, Repr

/-- The actions of a dial plan entry (R97). -/
inductive Action where
  | revertParty | revertSuffix | exchange | refuse
deriving DecidableEq, Repr

/-- The timebase roles (R32). -/
inductive Role where
  | alone | master | follower
deriving DecidableEq, Repr

/-- The follower states (R32). -/
inductive Follower where
  | acquiring | locked | holdover | lost
deriving DecidableEq, Repr

/-- The supply states (R138). -/
inductive Supply where
  | standby | warming | on
deriving DecidableEq, Repr

/-- The events of a SUPPLY report (R143). -/
inductive SupplyEvent where
  | standby | warming | on | faultSet | faultCleared
deriving DecidableEq, Repr

/-- The standby events handed to the arbiter (R139). -/
inductive StandbyEvent where
  | offhook | digit | request
deriving DecidableEq, Repr

/-- The class of an arbiter entry (R124). -/
inductive EntryClass where
  | ordinary | alarm
deriving DecidableEq, Repr

/-- What asked for the ringing (R124). -/
inductive RequestType where
  | terminating | revert | test | alarm
deriving DecidableEq, Repr

/-- The events of a RING report (R144). -/
inductive RingEvent where
  | suspended | delayed | resumed
deriving DecidableEq, Repr

/-- Why entries are suspended: capacity, or the fault of a channel (R136). -/
inductive SuspendCause where
  | capacity
  | fault (c : Channel)
deriving DecidableEq, Repr

/-- The calibration statuses (R1). -/
inductive CalStatus where
  | never | running | done | failed
deriving DecidableEq, Repr

/-- The failure causes of a calibration run (R172). -/
inductive CalCause where
  | leakHigh | supply | offhook | overload | noRinger | margin | bounds | canceled | reset
deriving DecidableEq, Repr

/-- How the trip threshold is found (R171). -/
inductive CalMethod where
  | midpoint | hold
deriving DecidableEq, Repr

/-- The phases of a calibration run (R162). -/
inductive CalPhase where
  | leak | wait | ring
deriving DecidableEq, Repr

/-- The causes of a LINE_FAULT report (R2, R58). -/
inductive LineFaultCause where
  | fittedLost | fittedReturned | leakySet | leakyCleared
deriving DecidableEq, Repr

/-- The link-fault causes (R177). -/
inductive LinkFault where
  | gap | badLength | badCheck | intakeFull
deriving DecidableEq, Repr

/-- The report kinds, in the order of their codes (R185). -/
inductive ReportKind where
  | state | origination | digits | exchangeRequest | answer | callEnd | ring | calibration | lineFault | plan | flash
  | sync | supply | link
deriving DecidableEq, Repr

/-- The statuses of a reply and the per-line outcomes (R193). -/
inductive Status where
  | ok | busy | wrongState | badField | badKind | badLength | locked | commitPending | unassigned | inUse
  | incomplete | cursorEnd | tooLong | notOpen | noLoad | ambiguous | badCadence | order | notFitted | disabled
  | pending | started | noAlarm
deriving DecidableEq, Repr

/-- The write forms of a flag set (00_scope.md, Write forms). -/
inductive WriteForm where
  | replace | set | clear
deriving DecidableEq, Repr

/-! ### Line plan -/

/-- A party entry (R10). -/
structure PartyEntry where
  present : Bool
  side : Side
  channel : Channel
  pattern : PatternNo
  acceptsRevert : Bool
deriving DecidableEq, Repr

/-- A party table: entries of slots 1-8 and the alarm identity, whose side is always BRIDGED (R10, R11); an alarm
pattern of NONE is `none`. -/
structure PartyTable where
  entries : Tab 8 PartyEntry
  alarmChannel : Channel
  alarmPattern : Option PatternNo
deriving DecidableEq, Repr

/-! ### Supervisor -/

/-- The hook machine (R43). -/
structure Hook where
  state : HookState
  qualify : Nat
  brk : Nat
  make : Nat
  pulse : Nat
deriving DecidableEq, Repr

/-- What a hook machine hands to its call controller at a scan (R49). -/
inductive HookItem where
  | offHook | onHook | digit (d : Digit) | digitError | flash | pulse
deriving DecidableEq, Repr

/-- The party-test state (R52). -/
structure PartyTest where
  running : Bool
  scans : Nat
  tipSum : Nat
  ringSum : Nat
deriving DecidableEq, Repr

/-- The tracking window (R56). -/
structure Tracking where
  count : Nat
  sum : Nat
deriving DecidableEq, Repr

/-! ### Call controller -/

/-- The digit buffer (R62). -/
structure DigitBuffer where
  digits : List Digit
  overflow : Bool
deriving DecidableEq, Repr

/-- The outgoing digit list (R62, R75). -/
structure OutList where
  digits : List Digit
  overflow : Bool
  digitError : Bool
deriving DecidableEq, Repr

/-- A call record (R92). Until it completes, its digits are those of the digit buffer and `digits` is empty. -/
structure Record where
  kind : RecordKind
  caller : Option Slot
  called : Option Slot
  idResult : Option TestResult
  digits : DigitBuffer
  start : Stamp
  answer : Option Stamp
  endStamp : Stamp
  cause : Option EndCause
  early : Nat
  overwritten : Bool
deriving DecidableEq, Repr

/-- The tones of a FEED drive (00_scope.md, External side). -/
inductive Tone where
  | none | dial | revert | reorder
deriving DecidableEq, Repr

/-- The line drive value (00_scope.md, External side). -/
inductive Drive where
  | park
  | feed (tone : Tone)
  | ring (side : Side) (channel : Channel)
  | partyTest
  | exchange
  | testAccess
deriving DecidableEq, Repr

/-! ### Arbiter and ring engine -/

/-- A voice of an arbiter entry (R124). -/
structure Voice where
  side : Side
  channel : Channel
  pattern : PatternNo
  load : Nat
deriving DecidableEq, Repr

/-- The state of an entry (R124); the offset is present exactly while the entry is PLACED. -/
inductive EntryState where
  | placed (offset : Nat)
  | waiting
  | suspended
deriving DecidableEq, Repr

/-- An arbiter entry (R124). Its line is the row it stands in. -/
structure Entry where
  cls : EntryClass
  reqType : RequestType
  voiceA : Voice
  voiceB : Option Voice
  state : EntryState
  waited : Nat
  delayed : Bool
deriving DecidableEq, Repr

/-- The RING drive being asserted, after side reversal (R148). -/
structure RingDrive where
  side : Side
  channel : Channel
deriving DecidableEq, Repr

/-- The play record of a placed line (R148). The phase is RINGING exactly while a drive is asserted. -/
structure Play where
  drive : Option RingDrive
  burstStep : Nat
  inrush : Nat
  trip : Nat
  armed : Bool
  acSum : Nat
  dcSum : Nat
  measured : Nat
deriving DecidableEq, Repr

/-! ### Calibrator -/

/-- A calibration run (R162). -/
structure Run where
  method : CalMethod
  mask : BitVec 4
  bounds : Option (Nat × Nat)
  hold : Option Nat
  phase : CalPhase
  leakScans : Nat
  leakSum : Nat
  leakAvg : Option Nat
  channel : Channel
  reqLoad : Nat
  waitCount : Nat
  meas : Tab 4 (Option (Nat × Nat))
deriving DecidableEq, Repr

/-! ### One line -/

/-- Everything the part holds for one line: its line record (R1), supervisor (R43, R52, R56, R58), call controller
(R62, R108), play record (R148) and calibration run (R162). -/
structure Line where
  presentSeen : Bool
  fitted : Bool
  opts : BitVec 4
  margin : Nat
  leakLimit : Nat
  tripThreshold : Nat
  loads : Tab 4 Nat
  baseline : Nat
  leaky : Bool
  lock : Bool
  commitPending : Bool
  calStatus : CalStatus
  calCause : Option CalCause
  calMethod : Option CalMethod
  staged : PartyTable
  active : PartyTable
  hook : Hook
  test : PartyTest
  track : Tracking
  call : CallState
  saved : Option CallState
  timer : Option Nat
  dialBegun : Bool
  digits : DigitBuffer
  out : OutList
  /-- the frames of alarm ringing still to run, in ALARM_RING (R62, R85; what it holds elsewhere: log 33) -/
  alarmCount : Nat
  alarmPending : Option Nat
  record : Option Record
  completed : Option Record
  /-- the manner kept for the ANSWER report (R108, R119; its reset value: log 31, how long it stands: log 32) -/
  manner : Option Manner
  play : Option Play
  run : Option Run
deriving DecidableEq, Repr

/-! ### Device-wide blocks -/

/-- A segment of a cadence pattern (R22): level ON or OFF, and duration in steps. -/
structure Segment where
  on : Bool
  dur : Nat
deriving DecidableEq, Repr

/-- The edit buffer (R24). The write cursor and the running sum are views of the segment list. -/
structure EditBuffer where
  bound : Option PatternNo
  segs : List Segment
deriving DecidableEq, Repr

/-- A dial plan entry (R97). -/
structure DialEntry where
  enabled : Bool
  pre : List Digit
  tail : Nat
  action : Action
deriving DecidableEq, Repr

/-- The settings of TIMERS_SET (R68, R55, R171). -/
structure Settings where
  firstDigit : Nat
  interdigit : Nat
  exchangeWait : Nat
  hangupWait : Nat
  revertNoAnswer : Nat
  termNoAnswer : Nat
  reorder : Nat
  idThreshold : Nat
  answerCurrent : Nat
deriving DecidableEq, Repr

/-- The frame timebase (R31 to R37). `scanned` and `stepDue` are the model's own, by which every tenth scan brings a step
event (log 3): the lines scanned in the present scan period, and that the tenth scan of the step has come, with its step
event not yet taken. -/
structure Timebase where
  position : Fin 60
  parity : Bool
  scanCount : Nat
  stamp : Stamp
  role : Role
  follower : Option Follower
  latch : Bool
  remembered : Option Nat
  windowOpen : Bool
  pulseOut : Bool
  scanned : BitVec 16
  stepDue : Bool
deriving DecidableEq, Repr

/-- The ringing supply arbiter (R120). -/
structure Arbiter where
  caps : Tab 4 (Tab 4 Nat)
  faults : BitVec 4
  faultSampled : Bool
  phaseBase : Nat
  stride : Nat
  waitThreshold : Nat
  unitCurrent : Nat
  assumedLoad : Nat
  rows : Tab 16 (Option Entry)
  profile : Tab 4 (Tab 120 Nat)
  placedOrder : List LineNo
  waitQueue : List LineNo
  supply : Supply
  standbyCount : Nat
  warmUpCount : Nat
  standbyFrames : Nat
  warmUpFrames : Nat
  reloadMask : BitVec 3
  wakeMask : BitVec 3
deriving DecidableEq, Repr

/-- A frame without its envelope: kind, tag and payload (R176, R184). -/
structure Frame where
  kind : Byte
  tag : Byte
  payload : List Byte
deriving DecidableEq, Repr

/-- The receive assembler (R176): its state with what it holds there. The gap timer runs exactly outside HUNT. -/
inductive Receiver where
  | hunt
  | length
  | body (len : Nat) (held : List Byte) (sum : Nat)
  | check (held : List Byte) (sum : Nat)
deriving DecidableEq, Repr

/-- The link interface (R175). The pending report sets and the report data slots are indexed by entry, lines 0-15
and then the device entry 16; a set has bit k for report kind 0x60 + k. -/
structure Link where
  receiver : Receiver
  intake : List Frame
  replies : List Frame
  tx : Option Frame
  lastServed : Fin 17
  pendingSets : Tab 17 (BitVec 14)
  slots : Tab 17 (Tab 14 (Option (List Byte)))
  mask : BitVec 14
  faults : BitVec 4
  rate : Rate
deriving DecidableEq, Repr

/-- The parts of the arbiter's work at a frame boundary, in their order (R132). -/
inductive Stage where
  | eviction | warmUp | queueWalk | waitCounting | standbyCounting
deriving DecidableEq, Repr

/-- How far the arbiter's work of a frame boundary has gone: the next part, the lines that stood in the wait queue
when the boundary was taken (R134), and whether the supply became ON at this boundary (R140). -/
structure Boundary where
  next : Stage
  stood : List LineNo
  becameOn : Bool
deriving DecidableEq, Repr

end Sys2Proof.Machine
end

