-- ==== Sys2Proof/Machine/Codes.lean ====
section
/-! DEFINITION. The codes of R193, the kind codes of the commands (R196 to R198) and of the reports (R185), and the
bits of the flag sets (R192). -/

namespace Sys2Proof.Machine

/-- The 41 commands of the host (R196 to R198). -/
inductive HostCmd where
  | deviceStatus | softReset | reportMask | timersSet | timebaseSet | supplySet | supplyTiming | arbiterSet
  | arbiterRead | partyWrite | partyRead | alarmIdentity | planCommit | planDiscard | lineOptions | lineLevels
  | lineLoads | lineLock | numberingSet | numberingRead | lineStatus | callRecordRead | cadenceOpen | cadencePut
  | cadenceStore | cadenceRead | cadenceClear | dialplanWrite | dialplanRead | ringParty | ringCancel | connect
  | reject | disconnect | lineRelease | alarmRing | alarmStop | testAccess | testRelease | calibrate
  | calibrateCancel
deriving DecidableEq, Repr

/-- The kind code of a command (R196 to R198). -/
def HostCmd.code : HostCmd → Byte
  | .deviceStatus => 0x01 | .softReset => 0x02 | .reportMask => 0x03 | .timersSet => 0x04
  | .timebaseSet => 0x05 | .supplySet => 0x06 | .supplyTiming => 0x07 | .arbiterSet => 0x08
  | .arbiterRead => 0x09
  | .partyWrite => 0x10 | .partyRead => 0x11 | .alarmIdentity => 0x12 | .planCommit => 0x13
  | .planDiscard => 0x14 | .lineOptions => 0x15 | .lineLevels => 0x16 | .lineLoads => 0x17
  | .lineLock => 0x18 | .numberingSet => 0x19 | .numberingRead => 0x1A | .lineStatus => 0x1B
  | .callRecordRead => 0x1C
  | .cadenceOpen => 0x20 | .cadencePut => 0x21 | .cadenceStore => 0x22 | .cadenceRead => 0x23
  | .cadenceClear => 0x24 | .dialplanWrite => 0x25 | .dialplanRead => 0x26
  | .ringParty => 0x30 | .ringCancel => 0x31 | .connect => 0x32 | .reject => 0x33 | .disconnect => 0x34
  | .lineRelease => 0x35 | .alarmRing => 0x36 | .alarmStop => 0x37 | .testAccess => 0x38
  | .testRelease => 0x39 | .calibrate => 0x3A | .calibrateCancel => 0x3B

/-- All commands of the host. -/
def HostCmd.all : List HostCmd :=
  [.deviceStatus, .softReset, .reportMask, .timersSet, .timebaseSet, .supplySet, .supplyTiming, .arbiterSet,
   .arbiterRead, .partyWrite, .partyRead, .alarmIdentity, .planCommit, .planDiscard, .lineOptions, .lineLevels,
   .lineLoads, .lineLock, .numberingSet, .numberingRead, .lineStatus, .callRecordRead, .cadenceOpen, .cadencePut,
   .cadenceStore, .cadenceRead, .cadenceClear, .dialplanWrite, .dialplanRead, .ringParty, .ringCancel, .connect,
   .reject, .disconnect, .lineRelease, .alarmRing, .alarmStop, .testAccess, .testRelease, .calibrate,
   .calibrateCancel]

/-- The command with a kind code, if there is one (R180, check 1). -/
def HostCmd.ofCode (k : Byte) : Option HostCmd := HostCmd.all.find? fun c => c.code == k

/-- The code of a status or per-line outcome. -/
def Status.code : Status → Byte
  | .ok => 0x00 | .busy => 0x01 | .wrongState => 0x02 | .badField => 0x03 | .badKind => 0x04 | .badLength => 0x05
  | .locked => 0x06 | .commitPending => 0x07 | .unassigned => 0x08 | .inUse => 0x09 | .incomplete => 0x0A
  | .cursorEnd => 0x0B | .tooLong => 0x0C | .notOpen => 0x0D | .noLoad => 0x0E | .ambiguous => 0x0F
  | .badCadence => 0x10 | .order => 0x11 | .notFitted => 0x12 | .disabled => 0x13 | .pending => 0x14
  | .started => 0x15 | .noAlarm => 0x16

/-- The code of a call state. -/
def CallState.code : CallState → Byte
  | .disabled => 0 | .idle => 1 | .ident => 2 | .dial => 3 | .exchWait => 4 | .exchange => 5 | .termRing => 6
  | .revertTone => 7 | .revertRing => 8 | .revertCheck => 9 | .revertTalk => 10 | .alarmRing => 11 | .reorder => 12
  | .lockout => 13 | .test => 14 | .calibrating => 15

/-- The code of an end cause; 0 is none. -/
def EndCause.code : EndCause → Byte
  | .normal => 1 | .abandoned => 2 | .noMatch => 3 | .badDigit => 4 | .barred => 5 | .unassigned => 6
  | .notSameLine => 7 | .notAccepted => 8 | .self => 9 | .noLoad => 10 | .noHangup => 11 | .noAnswer => 12
  | .earlyLift => 13 | .noExchange => 14 | .rejected => 15 | .canceled => 16 | .released => 17 | .disabled => 18
  | .alarmEnd => 19

/-- The code of an end cause that may be absent. -/
def endCauseCode : Option EndCause → Byte
  | none => 0
  | some c => c.code

/-- The code of a side. -/
def Side.code : Side → Byte
  | .tip => 0 | .ring => 1 | .bridged => 2

/-- The side with a code (0-2; other codes do not pass R194). -/
def Side.ofCode : Nat → Side
  | 0 => .tip
  | 1 => .ring
  | _ => .bridged

/-- The code of a party-test result; 0 is absent. -/
def testResultCode : Option TestResult → Byte
  | none => 0
  | some .tip => 1 | some .ring => 2 | some .both => 3 | some .neither => 4

/-- The code of a hook state. -/
def HookState.code : HookState → Byte
  | .onhook => 0 | .qualify => 1 | .offhook => 2 | .brk => 3

/-- The code of a record kind. -/
def RecordKind.code : RecordKind → Byte
  | .originated => 0 | .revert => 1 | .terminated => 2 | .alarm => 3

/-- The code of an answer manner. -/
def Manner.code : Manner → Byte
  | .trip => 0 | .silent => 2

/-- The write form with a code (0-2; other codes do not pass R194). -/
def WriteForm.ofCode : Nat → WriteForm
  | 0 => .replace
  | 1 => .set
  | _ => .clear

/-- The code of a dial plan action. -/
def Action.code : Action → Nat
  | .revertParty => 0 | .revertSuffix => 1 | .exchange => 2 | .refuse => 3

/-- The action with a code 0-3. -/
def Action.ofCode : Nat → Action
  | 0 => .revertParty
  | 1 => .revertSuffix
  | 2 => .exchange
  | _ => .refuse

/-- The code of a role. -/
def Role.code : Role → Byte
  | .alone => 0 | .master => 1 | .follower => 2

/-- The role with a code (0-2; other codes do not pass R194). -/
def Role.ofCode : Nat → Role
  | 0 => .alone
  | 1 => .master
  | _ => .follower

/-- The code of a follower state; 0 is none. -/
def followerCode : Option Follower → Byte
  | none => 0
  | some .acquiring => 1 | some .locked => 2 | some .holdover => 3 | some .lost => 4

/-- The code of a supply state. -/
def Supply.code : Supply → Byte
  | .standby => 0 | .warming => 1 | .on => 2

/-- The code of a supply event. -/
def SupplyEvent.code : SupplyEvent → Byte
  | .standby => 0 | .warming => 1 | .on => 2 | .faultSet => 3 | .faultCleared => 4

/-- The bit of a standby event in the reload and wake masks (R192). -/
def StandbyEvent.bit : StandbyEvent → Nat
  | .offhook => 0 | .digit => 1 | .request => 2

/-- The code of an entry class. -/
def EntryClass.code : EntryClass → Byte
  | .ordinary => 0 | .alarm => 1

/-- The code of a request type. -/
def RequestType.code : RequestType → Byte
  | .terminating => 0 | .revert => 1 | .test => 2 | .alarm => 3

/-- The code of an entry state. -/
def EntryState.code : EntryState → Byte
  | .placed _ => 0 | .waiting => 1 | .suspended => 2

/-- The code of a RING event. -/
def RingEvent.code : RingEvent → Byte
  | .suspended => 0 | .delayed => 1 | .resumed => 2

/-- The code of a RING cause; 0 is none. -/
def ringCauseCode : Option SuspendCause → Byte
  | none => 0
  | some .capacity => 1
  | some (.fault _) => 2

/-- The code of a LINE_FAULT cause. -/
def LineFaultCause.code : LineFaultCause → Byte
  | .fittedLost => 0 | .fittedReturned => 1 | .leakySet => 2 | .leakyCleared => 3

/-- The code of a calibration status. -/
def CalStatus.code : CalStatus → Byte
  | .never => 0 | .running => 1 | .done => 2 | .failed => 3

/-- The code of a calibration method. -/
def CalMethod.code : CalMethod → Byte
  | .midpoint => 0 | .hold => 1

/-- The code of a calibration cause; 0 is none. -/
def calCauseCode : Option CalCause → Byte
  | none => 0
  | some .leakHigh => 1 | some .supply => 2 | some .offhook => 3 | some .overload => 4 | some .noRinger => 5
  | some .margin => 6 | some .bounds => 7 | some .canceled => 8 | some .reset => 9

/-- The code of a calibration phase. -/
def CalPhase.code : CalPhase → Byte
  | .leak => 0 | .wait => 1 | .ring => 2

/-- The code of a link rate. -/
def rateCode : Rate → Byte
  | .b9600 => 0 | .b19200 => 1 | .b38400 => 2 | .b57600 => 3

/-- The number of a report kind: its code less 0x60 (R185). -/
def ReportKind.idx : ReportKind → Fin 14
  | .state => 0 | .origination => 1 | .digits => 2 | .exchangeRequest => 3 | .answer => 4 | .callEnd => 5
  | .ring => 6 | .calibration => 7 | .lineFault => 8 | .plan => 9 | .flash => 10 | .sync => 11 | .supply => 12
  | .link => 13

/-- The report kinds in the order of their codes. -/
def ReportKind.all : List ReportKind :=
  [.state, .origination, .digits, .exchangeRequest, .answer, .callEnd, .ring, .calibration, .lineFault, .plan,
   .flash, .sync, .supply, .link]

/-- The code of a report kind (R185). -/
def ReportKind.code (k : ReportKind) : Byte := 0x60 + BitVec.ofNat 8 k.idx.val

/-- The set that holds one report kind: bit k for kind 0x60 + k (R192). -/
def ReportKind.bit (k : ReportKind) : BitVec 14 := 1#14 <<< k.idx.val

/-- The bit of a link fault in the link-fault set (R192). -/
def LinkFault.bit : LinkFault → BitVec 4
  | .gap => 1 | .badLength => 2 | .badCheck => 4 | .intakeFull => 8

end Sys2Proof.Machine
end

