-- ==== Sys2Proof/Machine/ResetValues.lean ====
section
/-! DEFINITION. The hard-reset value of every piece of state: R20 (line plan), R30 (cadence table), R40 (timebase),
R60 (supervisor), R95 and R68 (call controller), R119 (dial plan), R146 with R123 and R142 (arbiter), R160 (ring
engine), R174 (calibrator), R191 (link). -/

namespace Sys2Proof.Machine

/-- An absent party entry with the reset values of its other fields (R20). -/
def PartyEntry.reset : PartyEntry := ⟨false, .tip, 0, 0, false⟩

/-- The party table at hard reset (R20). -/
def PartyTable.reset : PartyTable := ⟨Tab.fill PartyEntry.reset, 0, none⟩

/-- The hook machine ONHOOK with all counts 0 (R51, R60, R61). -/
def Hook.onhookClear : Hook := ⟨.onhook, 0, 0, 0, 0⟩

/-- The hook machine OFFHOOK with all counts 0 (R51, R85, R108, R168). -/
def Hook.offhookClear : Hook := ⟨.offhook, 0, 0, 0, 0⟩

/-- No party test running, sums and scan number 0 (R54, R60). -/
def PartyTest.idle : PartyTest := ⟨false, 0, 0, 0⟩

/-- The empty tracking window (R56, R60). -/
def Tracking.empty : Tracking := ⟨0, 0⟩

/-- The empty digit buffer. -/
def DigitBuffer.empty : DigitBuffer := ⟨[], false⟩

/-- The empty outgoing digit list, both flags clear. -/
def OutList.empty : OutList := ⟨[], false, false⟩

/-- One line at hard reset (R20, R60, R95, R119, R160, R174). That no manner is kept for the ANSWER report is the model's
choice: R119 gives it the values of R95, whose table does not name it (log 31). -/
def Line.reset : Line where
  presentSeen := false
  fitted := false
  opts := 0
  margin := 80
  leakLimit := 50
  tripThreshold := 200
  loads := Tab.fill 0
  baseline := 0
  leaky := false
  lock := false
  commitPending := false
  calStatus := .never
  calCause := none
  calMethod := none
  staged := PartyTable.reset
  active := PartyTable.reset
  hook := Hook.onhookClear
  test := PartyTest.idle
  track := Tracking.empty
  call := .disabled
  saved := none
  timer := none
  dialBegun := false
  digits := DigitBuffer.empty
  out := OutList.empty
  alarmCount := 0
  alarmPending := none
  record := none
  completed := none
  manner := none
  play := none
  run := none

/-- The built-in pattern of slot 0: ON 10, OFF 50 (R23). -/
def builtinPattern : List Segment := [⟨true, 10⟩, ⟨false, 50⟩]

/-- The cadence table at hard reset (R30). -/
def cadenceReset : Tab 32 (Option (List Segment)) := (Tab.fill none).set 0 (some builtinPattern)

/-- The unbound, empty edit buffer (R26, R30). -/
def EditBuffer.empty : EditBuffer := ⟨none, []⟩

/-- A dial plan entry at hard reset (R119). -/
def DialEntry.reset : DialEntry := ⟨false, [], 0, .refuse⟩

/-- The settings of TIMERS_SET at hard reset (R68, R55, R171). -/
def Settings.reset : Settings := ⟨20, 8, 5, 30, 120, 180, 20, 60, 180⟩

/-- The timebase at hard reset (R40). That no window is open, no pulse is being driven, no line has been scanned and no
step event is owed is the model's (log 3, 20, 21). -/
def Timebase.reset : Timebase := ⟨0, false, 0, 0, .alone, none, false, none, false, false, 0, false⟩

/-- The arbiter at hard reset (R146, R123, R142). -/
def Arbiter.reset : Arbiter where
  caps := Tab.fill (Tab.fill 0)
  faults := 0
  faultSampled := false
  phaseBase := 0
  stride := 5
  waitThreshold := 5
  unitCurrent := 60
  assumedLoad := 20
  rows := Tab.fill none
  profile := Tab.fill (Tab.fill 0)
  placedOrder := []
  waitQueue := []
  supply := .standby
  standbyCount := 20
  warmUpCount := 0
  standbyFrames := 20
  warmUpFrames := 2
  reloadMask := 0b111
  wakeMask := 0b001

/-- The device entry of the link's pending report sets (R185). -/
def deviceEntry : Fin 17 := 16

/-- The link at hard reset, with the rate that the straps show (R191). -/
def Link.reset (straps : Rate) : Link where
  receiver := .hunt
  intake := []
  replies := []
  tx := none
  lastServed := deviceEntry
  pendingSets := Tab.fill 0
  slots := Tab.fill (Tab.fill none)
  mask := BitVec.allOnes 14
  faults := 0
  rate := straps

end Sys2Proof.Machine
end

