-- ==== Sys2Proof/Machine/State.lean ====
section
/-! DEFINITION. The state of the part: everything the spec gives its nine blocks, the queue of commands that wait, and
the two fields of the model's own that let a sender take the works of a step event in any order (log 6). -/

namespace Sys2Proof.Machine

/-- The state of the FPL-1608. -/
structure State where
  /-- the 16 lines: line record, supervisor, call controller, play record, calibration run -/
  lines : Tab 16 Line
  /-- the numbering boundaries B0-B15 (R18) -/
  numbering : Tab 16 Nat
  /-- the cadence slots 0-31: DEFINED with their segments, or EMPTY (R22) -/
  cadence : Tab 32 (Option (List Segment))
  /-- the edit buffer (R24) -/
  edit : EditBuffer
  /-- the dial plan (R97) -/
  dialPlan : Tab 12 DialEntry
  /-- the settings of TIMERS_SET (R68) -/
  settings : Settings
  /-- the frame timebase (R31) -/
  timebase : Timebase
  /-- the ringing supply arbiter (R120) -/
  arb : Arbiter
  /-- the link interface (R175) -/
  link : Link
  /-- the model's own: works of the last step event held back by the sender (log 6) -/
  due : List Work
  /-- the model's own: the arbiter's work of a frame boundary while it is held back or half taken (log 6) -/
  boundary : Option Boundary
  /-- the commands that wait, first in, first out -/
  pending : List Instr
deriving DecidableEq, Repr

/-- The reasons a step can fault: none. The spec names nothing that stops the part; every command is answered and
every event has an effect or none, so no meaning raises a fault (safe). -/
inductive Fault where
deriving DecidableEq, Repr

/-- The reasons a step can be refused. -/
inductive Refusal where
  /-- Raised by an arm of `exec` whose command has no meaning yet; safe, for nothing then follows about it. No arm
  raises it now. -/
  | notModelled (mnemonic : String)
deriving DecidableEq, Repr

/-- What a step answers. -/
abbrev Outcome := Host.Outcome State Fault Refusal

/-- The part right after hard reset with the straps at 9600 baud (DESIGN CHOICE, log 18) and an empty queue. -/
def State.reset : State where
  lines := Tab.fill Line.reset
  numbering := Tab.fill 0
  cadence := cadenceReset
  edit := EditBuffer.empty
  dialPlan := Tab.fill DialEntry.reset
  settings := Settings.reset
  timebase := Timebase.reset
  arb := Arbiter.reset
  link := Link.reset .b9600
  due := []
  boundary := none
  pending := []

end Sys2Proof.Machine
end

