-- ==== Sys2Proof/Machine/Flags.lean ====
section
/-! DEFINITION. Every flag computation: write forms over flag sets (00_scope.md, R4, R142, R188), the option flags
(R1, R3), the LEAKY judgement (R58), and the sets of channels, standby events, link faults and report kinds. -/

namespace Sys2Proof.Machine

/-- Writing a flag set by a write form (R4, R188): REPLACE, SET or CLEAR of `value` on `old`. -/
def WriteForm.apply {w : Nat} (form : WriteForm) (old value : BitVec w) : BitVec w :=
  match form with
  | .replace => value
  | .set => old ||| value
  | .clear => old &&& ~~~value

/-- ENABLED, bit 0 of the option set (R192). -/
def Line.enabled (x : Line) : Bool := x.opts.getLsbD 0

/-- SIDE_REVERSE, bit 1 of the option set. -/
def Line.sideReverse (x : Line) : Bool := x.opts.getLsbD 1

/-- REVERT_ALLOWED, bit 2 of the option set. -/
def Line.revertAllowed (x : Line) : Bool := x.opts.getLsbD 2

/-- UNMATCHED_TO_EXCHANGE, bit 3 of the option set. -/
def Line.unmatchedToExchange (x : Line) : Bool := x.opts.getLsbD 3

/-- The option flags that the lock freezes (R8): all but ENABLED. -/
def frozenFlags : BitVec 4 := 0b1110

/-- The option set with ENABLED cleared (R2). -/
def withoutEnabled (o : BitVec 4) : BitVec 4 := o &&& frozenFlags

/-- TIP and RING exchanged, BRIDGED kept (R3, R65). -/
def Side.reversed : Side → Side
  | .tip => .ring
  | .ring => .tip
  | .bridged => .bridged

/-- The side driven for a side of the party tables, by SIDE_REVERSE (R65). -/
def Line.drivenSide (x : Line) (s : Side) : Side := if x.sideReverse then s.reversed else s

/-- A party-test result in the sides of the party tables, by SIDE_REVERSE (R53). -/
def Line.handedResult (x : Line) (r : TestResult) : TestResult :=
  if x.sideReverse then
    match r with
    | .tip => .ring
    | .ring => .tip
    | .both => .both
    | .neither => .neither
  else r

/-- The LEAKY judgement at a baseline write (R58). -/
def leakyAfter (limit baseline : Nat) (before : Bool) : Bool :=
  if limit < baseline then true
  else if baseline + 5 ≤ limit then false
  else before

/-- The hook machine holds OFFHOOK when its state is OFFHOOK or BREAK (R43). -/
def Hook.holdsOffhook (h : Hook) : Bool :=
  match h.state with
  | .offhook | .brk => true
  | .onhook | .qualify => false

/-- The make scans required before an off-hook event (R44). -/
def Line.required (x : Line) : Nat := if x.leaky then 10 else 5

/-- A fault input is asserted for channel `c` (R122). -/
def Arbiter.faulted (a : Arbiter) (c : Channel) : Bool := a.faults.getLsbD c.val

/-- The set of one channel. -/
def channelBit (c : Channel) : BitVec 4 := 1#4 <<< c.val

/-- The bit of a line in a set of lines. -/
def lineBit (l : LineNo) : BitVec 16 := 1#16 <<< l.val

/-- A report kind is in a set of kinds. -/
def kindIn (k : ReportKind) (m : BitVec 14) : Bool := m.getLsbD k.idx.val

/-- The output SUPEN: high in WARMING and ON (R138). -/
def Arbiter.supen (a : Arbiter) : Bool :=
  match a.supply with
  | .standby => false
  | .warming | .on => true

end Sys2Proof.Machine
end

