-- ==== Sys2Proof/Machine/Operands.lean ====
section
/-! DEFINITION. The operand forms of the host commands: how payload bytes are read (R192) and how a payload is judged,
length first and then field by field (R180, R194, with the ranges of R196 to R198 and of the owning rules). -/

namespace Sys2Proof.Machine

/-- The payload byte at an offset, as a number. -/
def byteAt (p : List Byte) (i : Nat) : Nat := (p.getD i 0).toNat

/-- The two-byte quantity at an offset, most significant byte first (R192). -/
def wordAt (p : List Byte) (i : Nat) : Nat := byteAt p i * 256 + byteAt p (i + 1)

/-- The line named by the byte at an offset (it has passed R194). -/
def lineAt (p : List Byte) (i : Nat) : LineNo := Fin.ofNat 16 (byteAt p i)

/-- The channel named by the byte at an offset. -/
def channelAt (p : List Byte) (i : Nat) : Channel := Fin.ofNat 4 (byteAt p i)

/-- The pattern named by the byte at an offset. -/
def patternAt (p : List Byte) (i : Nat) : PatternNo := Fin.ofNat 32 (byteAt p i)

/-- The slot named by the byte at an offset: slot number n is index n - 1. -/
def slotAt (p : List Byte) (i : Nat) : Slot := Fin.ofNat 8 (byteAt p i - 1)

/-- The 16 lines in ascending order. -/
def lineNos : List LineNo := [0, 1, 2, 3, 4, 5, 6, 7, 8, 9, 10, 11, 12, 13, 14, 15]

/-- The four channels. -/
def channels : List Channel := [0, 1, 2, 3]

/-- The eight slots. -/
def slots : List Slot := [0, 1, 2, 3, 4, 5, 6, 7]

/-- The lines of a line set, ascending: bit n of the 16-bit value stands for line n (R192). -/
def linesOf (w : Nat) : List LineNo := lineNos.filter fun l => w.testBit l.val

/-- Two decimal digits of a packed byte, the earlier in the high four bits (R192). -/
def nibblesAt (p : List Byte) (i : Nat) : List Nat := [byteAt p i / 16, byteAt p i % 16]

/-- The segments of a CADENCE_PUT payload (R198): level and duration, two bytes each. -/
def segmentsOf : List Byte → List Segment
  | level :: dur :: rest => ⟨level.toNat == 1, dur.toNat⟩ :: segmentsOf rest
  | _ => []

/-- The prefix length of a dial plan entry, bits 2-0 of its first byte (R198). -/
def prefixLenAt (p : List Byte) (i : Nat) : Nat := byteAt p i % 8

/-- The action code of a dial plan entry, bits 5-4 of its first byte (R198). -/
def actionCodeAt (p : List Byte) (i : Nat) : Nat := byteAt p i / 16 % 4

/-- The dial plan entry at an offset (R198). Prefix places beyond the prefix length are disregarded. -/
def dialEntryAt (p : List Byte) (i : Nat) : DialEntry where
  enabled := (byteAt p i).testBit 7
  pre := ((nibblesAt p (i + 2) ++ nibblesAt p (i + 3)).take (prefixLenAt p i)).map (Fin.ofNat 10)
  tail := byteAt p (i + 1)
  action := Action.ofCode (actionCodeAt p i)

/-- An alarm pattern byte: 0xFF is NONE (R197). -/
def alarmPatternAt (p : List Byte) (i : Nat) : Option PatternNo :=
  if byteAt p i = 0xFF then none else some (patternAt p i)

/-- The party entry at an offset (R197). -/
def partyEntryAt (p : List Byte) (i : Nat) : PartyEntry where
  present := byteAt p i == 1
  side := Side.ofCode (byteAt p (i + 1))
  channel := channelAt p (i + 2)
  pattern := patternAt p (i + 3)
  acceptsRevert := byteAt p (i + 4) == 1

/-! ### Length -/

/-- The payload length that a command's layout allows (R194 with R196 to R198). -/
def lengthFits (c : HostCmd) (n : Nat) : Bool :=
  match c with
  | .cadencePut => n % 2 == 0 && n ≤ 24
  | .deviceStatus | .softReset | .numberingRead | .cadenceStore | .dialplanRead => n == 0
  | .timebaseSet | .planCommit | .planDiscard | .lineStatus | .callRecordRead | .cadenceOpen | .cadenceRead
  | .cadenceClear | .ringCancel | .connect | .reject | .disconnect | .lineRelease | .testAccess | .testRelease
  | .calibrateCancel => n == 1
  | .partyRead | .lineLock | .alarmStop => n == 2
  | .reportMask | .arbiterRead | .alarmIdentity | .alarmRing => n == 3
  | .lineOptions => n == 4
  | .supplySet | .arbiterSet | .lineLoads | .dialplanWrite | .ringParty => n == 5
  | .supplyTiming => n == 6
  | .partyWrite | .lineLevels => n == 7
  | .calibrate => n == 10
  | .timersSet => n == 17
  | .numberingSet => n == 32

/-! ### Fields -/

/-- A field check: whether the field passes, and the payload offset of the field (R194). -/
abbrev Check := Bool × Nat

/-- `lo ≤ x ≤ hi`. -/
def within (lo hi x : Nat) : Bool := lo ≤ x && x ≤ hi

/-- A one-byte field with a range. -/
def byteIn (p : List Byte) (lo hi i : Nat) : Check := (within lo hi (byteAt p i), i)

/-- A two-byte field with a range. -/
def wordIn (p : List Byte) (lo hi i : Nat) : Check := (within lo hi (wordAt p i), i)

/-- A line field. -/
def lineField (p : List Byte) (i : Nat) : Check := byteIn p 0 15 i

/-- The checks of the segments of CADENCE_PUT, from an offset on (R25). -/
def segmentChecks : Nat → List Byte → List Check
  | i, level :: dur :: rest =>
    (decide (level.toNat ≤ 1), i) :: (within 1 60 dur.toNat, i + 1) :: segmentChecks (i + 2) rest
  | _, _ => []

/-- The address and no-answer time of RING_PARTY, read by its mode (R198). -/
def ringPartyChecks (p : List Byte) : List Check :=
  [byteIn p 0 1 0]
    ++ (if byteAt p 0 = 0 then [lineField p 1, byteIn p 1 8 2] else [wordIn p 0 999 1])
    ++ [(wordAt p 3 == 0 || within 10 600 (wordAt p 3), 3)]

/-- The fields of CALIBRATE and then its relations (R163, R198). The mask's emptiness and the hold value's range are
single fields (DEDUCED, log 17). -/
def calibrateChecks (p : List Byte) : List Check :=
  [lineField p 0, byteIn p 0 1 1, byteIn p 1 15 2, byteIn p 0 1 3]
    ++ (if byteAt p 3 = 1 then [wordIn p 20 600 4, wordIn p 20 600 6] else [])
    ++ [(wordAt p 8 == 0 || within 20 600 (wordAt p 8), 8)]
    ++ (if byteAt p 3 = 1 then [(decide (wordAt p 4 ≤ wordAt p 6), 6)] else [])
    ++ [(byteAt p 1 == 0 || wordAt p 8 != 0, 8), (byteAt p 1 == 1 || wordAt p 8 == 0, 8)]

/-- The fields of DIALPLAN_WRITE and then its relations (R98, R198). The two bytes of prefix digits are one field
(DEDUCED, log 16). -/
def dialplanChecks (p : List Byte) : List Check :=
  let len := prefixLenAt p 1
  let tail := byteAt p 2
  let act := Action.ofCode (actionCodeAt p 1)
  [byteIn p 0 11 0,
   (!(byteAt p 1).testBit 6 && !(byteAt p 1).testBit 3 && decide (len ≤ 4), 1),
   byteIn p 0 4 2,
   (((nibblesAt p 3 ++ nibblesAt p 4).take len).all (· ≤ 9), 3),
   (within 1 8 (len + tail), 2),
   (act != .revertParty || tail == 1, 2),
   (act != .revertSuffix || tail == 3, 2)]

/-- The arguments of ARBITER_READ, judged by its selector (R196). -/
def arbiterReadChecks (p : List Byte) : List Check :=
  [byteIn p 0 2 0]
    ++ (if byteAt p 0 = 1 then [lineField p 1] else [])
    ++ (if byteAt p 0 = 2 then [byteIn p 0 3 1, byteIn p 0 1 2] else [])

/-- The field checks of a command, in the order in which they are judged (R194). -/
def fieldChecks (c : HostCmd) (p : List Byte) : List Check :=
  match c with
  | .deviceStatus | .softReset | .numberingRead | .cadenceStore | .dialplanRead | .numberingSet | .lineLock
  | .alarmStop => []
  | .reportMask => [byteIn p 0 2 0, wordIn p 0 0x3FFF 1]
  | .timersSet =>
    [wordIn p 1 60 0, wordIn p 1 30 2, wordIn p 1 30 4, wordIn p 5 120 6, wordIn p 10 600 8, wordIn p 10 600 10,
     wordIn p 5 120 12, byteIn p 10 255 14, wordIn p 40 600 15]
  | .timebaseSet => [byteIn p 0 2 0]
  | .supplySet => [byteIn p 0 3 0]
  | .supplyTiming =>
    [byteIn p 1 255 0, byteIn p 0 15 1, byteIn p 0 2 2, byteIn p 0 7 3, byteIn p 0 2 4, byteIn p 0 3 5]
  | .arbiterSet =>
    [byteIn p 0 119 0, (byteAt p 1 != 0 && 120 % byteAt p 1 == 0, 1), byteIn p 1 255 2, byteIn p 10 255 3,
     byteIn p 1 40 4]
  | .arbiterRead => arbiterReadChecks p
  | .partyWrite =>
    [lineField p 0, byteIn p 1 8 1, byteIn p 0 1 2, byteIn p 0 2 3, byteIn p 0 3 4, byteIn p 0 31 5, byteIn p 0 1 6]
  | .partyRead => [lineField p 0, byteIn p 0 1 1]
  | .alarmIdentity =>
    [lineField p 0, byteIn p 0 3 1, (within 1 31 (byteAt p 2) || byteAt p 2 == 0xFF, 2)]
  | .lineOptions => [byteIn p 0 2 2, byteIn p 0 15 3]
  | .lineLevels => [lineField p 0, wordIn p 20 300 1, wordIn p 5 250 3, wordIn p 20 600 5]
  | .lineLoads => [lineField p 0, byteIn p 0 40 1, byteIn p 0 40 2, byteIn p 0 40 3, byteIn p 0 40 4]
  | .cadenceOpen | .cadenceClear => [byteIn p 1 31 0]
  | .cadencePut => segmentChecks 0 p
  | .cadenceRead => [byteIn p 0 31 0]
  | .dialplanWrite => dialplanChecks p
  | .ringParty => ringPartyChecks p
  | .alarmRing => [byteIn p 1 255 2]
  | .calibrate => calibrateChecks p
  | .planCommit | .planDiscard | .lineStatus | .callRecordRead | .ringCancel | .connect | .reject | .disconnect
  | .lineRelease | .testAccess | .testRelease | .calibrateCancel => [lineField p 0]

/-- The offset of the first field that fails, if one does (R194). -/
def firstFailing (cs : List Check) : Option Nat := (cs.find? fun c => !c.1).map (·.2)

end Sys2Proof.Machine
end

