-- ==== Sys2Proof/Machine/Payload.lean ====
section
/-! DEFINITION. How values are written into payloads (R192): numbers, digit lists, flag sets, absent values; the call
record (R197), the dial plan entry (R198), and the wire form of a frame (R184). -/

namespace Sys2Proof.Machine

/-- A number as one byte. -/
def toByte (n : Nat) : Byte := BitVec.ofNat 8 n

/-- A quantity of two bytes, most significant byte first. -/
def toBytes2 (n : Nat) : List Byte := [toByte (n / 256), toByte n]

/-- The step stamp, four bytes, most significant first. -/
def stampBytes (t : Stamp) : List Byte :=
  [toByte (t.toNat / 16777216), toByte (t.toNat / 65536), toByte (t.toNat / 256), toByte t.toNat]

/-- A flag byte. -/
def flagByte (b : Bool) : Byte := if b then 1 else 0

/-- A slot number, 0 when absent. -/
def slotByte : Option Slot → Byte
  | none => 0
  | some x => toByte (x.val + 1)

/-- Two digits to a byte, the earlier in the high four bits. -/
def packNibbles : List Nat → List Byte
  | a :: b :: rest => toByte (a * 16 + b) :: packNibbles rest
  | [a] => [toByte (a * 16 + 0xF)]
  | [] => []

/-- Digits padded with 0xF to a number of places and packed. -/
def packDigits (places : Nat) (ds : List Digit) : List Byte :=
  packNibbles (((ds.map fun (d : Digit) => d.val) ++ List.replicate places 0xF).take places)

/-- A digit list: the count and 8 bytes of digits (R192). -/
def digitList (ds : List Digit) : List Byte := toByte ds.length :: packDigits 16 ds

/-- A line as a byte. -/
def lineByte (l : LineNo) : Byte := toByte l.val

/-- The 28 bytes of a call record (R197); `ds` are its digits. -/
def recordBytes (r : Record) (ds : DigitBuffer) : List Byte :=
  [r.kind.code, slotByte r.caller, slotByte r.called, testResultCode r.idResult,
   toByte ((if ds.overflow then 1 else 0) + (if r.answer.isSome then 2 else 0) + (if r.overwritten then 4 else 0))]
    ++ digitList ds.digits
    ++ stampBytes r.start
    ++ stampBytes (r.answer.getD 0)
    ++ stampBytes r.endStamp
    ++ [endCauseCode r.cause, toByte r.early]

/-- An absent record: 28 bytes of 0 (R197). -/
def absentRecord : List Byte := List.replicate 28 0

/-- The five bytes of a party entry (R197). -/
def partyEntryBytes (e : PartyEntry) : List Byte :=
  [flagByte e.present, e.side.code, toByte e.channel.val, toByte e.pattern.val, flagByte e.acceptsRevert]

/-- The four bytes of a dial plan entry (R198). -/
def dialEntryBytes (e : DialEntry) : List Byte :=
  [toByte ((if e.enabled then 128 else 0) + e.action.code * 16 + e.pre.length), toByte e.tail]
    ++ packDigits 4 e.pre

/-- The two bytes of a segment (R198). -/
def segmentBytes (g : Segment) : List Byte := [flagByte g.on, toByte g.dur]

/-- The four bytes of a voice: side, channel, pattern, load (R196). -/
def voiceBytes (v : Voice) : List Byte :=
  [v.side.code, toByte v.channel.val, toByte v.pattern.val, toByte v.load]

/-- An absent voice: channel and pattern 0xFF, side and load 0 (R196). -/
def absentVoice : List Byte := [0, 0xFF, 0xFF, 0]

/-- A pattern that may be NONE, 0xFF when it is (R197). -/
def patternByte : Option PatternNo → Byte
  | none => 0xFF
  | some p => toByte p.val

/-- The sum of bytes as numbers. -/
def sumBytes : List Byte → Nat
  | [] => 0
  | b :: bs => b.toNat + sumBytes bs

/-- The bytes of a frame from the length to the end of the payload. -/
def Frame.summed (f : Frame) : List Byte := toByte (f.payload.length + 2) :: f.kind :: f.tag :: f.payload

/-- The check byte: it makes the sum of the length through the check 0 modulo 256 (R184). -/
def Frame.check (f : Frame) : Byte := toByte (256 - sumBytes f.summed % 256)

/-- A frame on the wire (R184): start, length, kind, tag, payload, check. -/
def Frame.wire (f : Frame) : List Byte := 0xC3 :: f.summed ++ [f.check]

end Sys2Proof.Machine
end

