-- ==== Sys2Proof/Machine/Ops.lean ====
section
/-! DEFINITION. The named operations over the state that every block uses: access to a line and to each block,
marking a report (R186), the base drive and the line drive (R65, R66), whether a hook machine is suspended (R50), the
capacity in force (R38, R122), and reading a pattern at a position (R22). -/

namespace Sys2Proof.Machine

namespace State

/-! ### Access -/

/-- What the part holds for line `l`. -/
def line (s : State) (l : LineNo) : Line := s.lines.get l

/-- Line `l` replaced. -/
def setLine (l : LineNo) (x : Line) (s : State) : State := { s with lines := s.lines.set l x }

/-- Line `l` changed by `f`. -/
def updLine (l : LineNo) (f : Line → Line) (s : State) : State := s.setLine l (f (s.line l))

/-- The arbiter changed by `f`. -/
def updArb (f : Arbiter → Arbiter) (s : State) : State := { s with arb := f s.arb }

/-- The timebase changed by `f`. -/
def updTimebase (f : Timebase → Timebase) (s : State) : State := { s with timebase := f s.timebase }

/-- The link changed by `f`. -/
def updLink (f : Link → Link) (s : State) : State := { s with link := f s.link }

/-- The row of line `l` in the placement table (R124). -/
def row (s : State) (l : LineNo) : Option Entry := s.arb.rows.get l

/-- The row of line `l` replaced. -/
def setRow (l : LineNo) (e : Option Entry) (s : State) : State :=
  s.updArb fun a => { a with rows := a.rows.set l e }

/-- The step stamp as it stands. -/
def stamp (s : State) : Stamp := s.timebase.stamp

/-! ### Reports -/

/-- Marking a report kind for an entry with its data (R186). -/
def mark (k : ReportKind) (e : Fin 17) (data : List Byte) (s : State) : State :=
  if kindIn k s.link.mask then
    s.updLink fun x =>
      { x with
        slots := x.slots.set e ((x.slots.get e).set k.idx (some data))
        pendingSets := x.pendingSets.set e (x.pendingSets.get e ||| k.bit) }
  else s

/-- The entry of a line in the link's pending sets (R185). -/
def lineEntry (l : LineNo) : Fin 17 := ⟨l.val, by omega⟩

/-- Marking a report kind of a line. -/
def markLine (k : ReportKind) (l : LineNo) (data : List Byte) (s : State) : State :=
  s.mark k (lineEntry l) data

/-- Marking a report kind of the device entry. -/
def markDevice (k : ReportKind) (data : List Byte) (s : State) : State := s.mark k deviceEntry data

/-- A report kind of a line is pending. -/
def pendingLine (s : State) (k : ReportKind) (l : LineNo) : Bool :=
  kindIn k (s.link.pendingSets.get (lineEntry l))

/-- Marking a LINE_FAULT report with the line's flags as they stand (R2, R58, R199). -/
def markLineFault (l : LineNo) (c : LineFaultCause) (s : State) : State :=
  s.markLine .lineFault l [lineByte l, c.code, flagByte (s.line l).fitted, flagByte (s.line l).leaky]

/-- Marking a SUPPLY report with the state after the event (R143, R199). -/
def markSupply (ev : SupplyEvent) (c : Option Channel) (s : State) : State :=
  s.markDevice .supply
    ([ev.code, (match c with | none => 0xFF | some x => toByte x.val), s.arb.supply.code,
      toByte s.arb.faults.toNat] ++ stampBytes s.stamp)

/-- Marking a SYNC report (R32, R199). -/
def markSync (s : State) : State :=
  s.markDevice .sync ([s.timebase.role.code, followerCode s.timebase.follower] ++ stampBytes s.stamp)

end State

/-! ### Line drive and suspension -/

/-- Ringing is asserted for the line: its play record has a drive (R148, R149). -/
def Line.ringing (x : Line) : Bool :=
  match x.play with
  | none => false
  | some r => r.drive.isSome

/-- The base drive of a line's call state (R66). -/
def Line.baseDrive (x : Line) : Drive :=
  match x.call with
  | .disabled | .lockout => .park
  | .idle | .ident | .termRing | .alarmRing | .revertRing | .revertCheck | .revertTalk | .calibrating
  | .exchWait => .feed .none
  | .dial => .feed (if x.dialBegun then .none else .dial)
  | .revertTone => .feed .revert
  | .reorder => .feed .reorder
  | .exchange => .exchange
  | .test => .testAccess

/-- The line drive that goes out (R65): PARTYTEST, then RING, then the base drive. -/
def Line.drive (x : Line) : Drive :=
  if x.test.running then .partyTest
  else match x.play with
    | some { drive := some d, .. } => .ring d.side d.channel
    | _ => x.baseDrive

/-- The hook machine is suspended at a scan that finds the line so (R50). -/
def Line.suspended (x : Line) : Bool :=
  x.call == .disabled || x.call == .test || x.test.running || x.ringing

/-! ### Cadence and ring cycle -/

/-- A segment list is ON at a position: the segment covering it is ON (R22). -/
def onAt : List Segment → Nat → Bool
  | [], _ => false
  | g :: gs, k => if k < g.dur then g.on else onAt gs (k - g.dur)

/-- The sum of the durations of a segment list (R22, R24). -/
def durSum : List Segment → Nat
  | [] => 0
  | g :: gs => g.dur + durSum gs

/-- The cycle step in force: parity x 60 + position (R31). -/
def Timebase.cycleStep (t : Timebase) : Nat := (if t.parity then 60 else 0) + t.position.val

/-- The window of a cycle step (R31). -/
def windowOf (cs : Nat) : Fin 4 := Fin.ofNat 4 (cs % 60 / 15)

/-- A pattern is ON at a position of the frame; an EMPTY slot is ON nowhere. -/
def State.patternOn (s : State) (p : PatternNo) (k : Nat) : Bool :=
  match s.cadence.get p with
  | none => false
  | some segs => onAt segs k

/-- The timebase does not know where its partners' windows lie (R38). -/
def Timebase.blind (t : Timebase) : Bool :=
  t.role == .follower && (t.follower == some .acquiring || t.follower == some .lost)

/-- The smallest of a channel's four window capacities (R38). -/
def smallest (w : Tab 4 Nat) : Nat := min (min (w.get 0) (w.get 1)) (min (w.get 2) (w.get 3))

/-- The capacity in force for channel `c` at cycle step `cs` (R122, R38). -/
def State.capacity (s : State) (c : Channel) (cs : Nat) : Nat :=
  if s.arb.faulted c then 0
  else if s.timebase.blind then smallest (s.arb.caps.get c)
  else (s.arb.caps.get c).get (windowOf cs)

/-- The profile value of a channel at a cycle step. -/
def profileAt (p : Tab 4 (Tab 120 Nat)) (c : Channel) (cs : Nat) : Nat := (p.get c).get (Fin.ofNat 120 cs)

end Sys2Proof.Machine
end

