-- ==== Sys2Proof/Machine/Arbiter.lean ====
section
/-! DEFINITION. The ringing supply arbiter: positions and loads of an entry (R126), the admission search (R128),
placement (R129), requests (R125, R130), joining the wait queue (R131), removal (R137), and the standby events (R139,
R141). Its work at a frame boundary stands in Machine/Boundary.lean. -/

namespace Sys2Proof.Machine

/-! ### Position, voice and load -/

/-- The position of an entry with offset `φ` at cycle step `cs` (R126). -/
def positionAt (φ cs : Nat) : Nat := (cs + 120 - φ % 120) % 120

/-- The voice in use at a position (R126). -/
def Entry.voiceInUse (e : Entry) (p : Nat) : Voice :=
  match e.voiceB with
  | none => e.voiceA
  | some b => if p < 60 then e.voiceA else b

/-- The voice that is ON at a cycle step for an offset, if the entry is ON there (R126). -/
def State.voiceOn (s : State) (e : Entry) (φ cs : Nat) : Option Voice :=
  let p := positionAt φ cs
  let v := e.voiceInUse p
  if s.patternOn v.pattern (p % 60) then some v else none

/-- The load of a voice that is ON, on one channel. -/
def voiceLoad (v : Option Voice) (c : Channel) : Nat :=
  match v with
  | none => 0
  | some x => if x.channel = c then x.load else 0

/-- The entry's load on channel `c` at cycle step `cs` with offset `φ` (R126). -/
def State.loadAt (s : State) (e : Entry) (φ : Nat) (c : Channel) (cs : Nat) : Nat :=
  voiceLoad (s.voiceOn e φ cs) c

/-- A voice of the entry is on channel `c` (R133, R135). -/
def Entry.uses (e : Entry) (c : Channel) : Bool :=
  e.voiceA.channel == c || (match e.voiceB with | none => false | some b => b.channel == c)

/-- A voice of the entry names pattern `p` (R27). -/
def Entry.names (e : Entry) (p : PatternNo) : Bool :=
  e.voiceA.pattern == p || (match e.voiceB with | none => false | some b => b.pattern == p)

/-- The entry is of class ALARM. -/
def Entry.isAlarm (e : Entry) : Bool := e.cls == .alarm

/-- The line holds an entry of class ALARM. -/
def State.alarmEntry (s : State) (l : LineNo) : Bool :=
  match s.row l with
  | none => false
  | some e => e.isAlarm

/-! ### The profile -/

/-- The profile with an entry's loads added (R129). -/
def State.profileWith (s : State) (e : Entry) (φ : Nat) : Tab 4 (Tab 120 Nat) :=
  Tab.build fun c => Tab.build fun cs => (s.arb.profile.get c).get cs + s.loadAt e φ c cs.val

/-- A profile with an entry's loads taken out (R136, R137). -/
def State.profileWithout (s : State) (p : Tab 4 (Tab 120 Nat)) (e : Entry) (φ : Nat) : Tab 4 (Tab 120 Nat) :=
  Tab.build fun c => Tab.build fun cs => (p.get c).get cs - s.loadAt e φ c cs.val

/-- A profile without the loads of an entry, if the entry is PLACED. -/
def State.profileLess (s : State) (p : Tab 4 (Tab 120 Nat)) (e : Entry) : Tab 4 (Tab 120 Nat) :=
  match e.state with
  | .placed φ => s.profileWithout p e φ
  | .waiting | .suspended => p

/-! ### The admission search -/

/-- The candidate offsets, in the order in which they are tried (R128). -/
def Arbiter.candidates (a : Arbiter) : List Nat :=
  (List.range (120 / a.stride)).map fun k => (a.phaseBase + k * a.stride) % 120

/-- The point check of R128 at one cycle step: an OFF step passes; at an ON step every channel is checked
(DEDUCED, log 12). -/
def State.stepFits (s : State) (e : Entry) (φ cs : Nat) : Bool :=
  match s.voiceOn e φ cs with
  | none => true
  | some v =>
    channels.all fun c => decide (profileAt s.arb.profile c cs + voiceLoad (some v) c ≤ s.capacity c cs)

/-- A candidate offset fits (R128). -/
def State.fits (s : State) (e : Entry) (φ : Nat) : Bool := (List.range 120).all fun cs => s.stepFits e φ cs

/-- The admission search: the first candidate that fits (R128). -/
def State.search (s : State) (e : Entry) : Option Nat := s.arb.candidates.find? fun φ => s.fits e φ

/-! ### The RING report -/

/-- The place of a line in the wait queue, 1 for the head; 0 when it is not there (R144). -/
def Arbiter.queuePosition (a : Arbiter) (l : LineNo) : Nat :=
  if a.waitQueue.contains l then a.waitQueue.idxOf l + 1 else 0

/-- Marking a RING report for the entry `e` of a line as the event leaves it (R144, R199). -/
def State.markRing (l : LineNo) (ev : RingEvent) (cause : Option SuspendCause) (e : Entry) (waited position : Nat)
    (s : State) : State :=
  s.markLine .ring l
    ([lineByte l, ev.code, ringCauseCode cause,
      (match cause with | some (.fault c) => toByte c.val | _ => 0xFF), e.reqType.code, e.state.code,
      toByte waited, toByte position] ++ stampBytes s.stamp)

/-! ### Leaving the queue -/

/-- A held boundary work forgets that a line stood in the queue. -/
def Boundary.without (b : Boundary) (l : LineNo) : Boundary := { b with stood := b.stood.filter (· != l) }

/-- The line's entry has left the wait queue, by its placement or its removal (R131): an entry that joins later is not
one that stood there when the boundary was taken and stands there still (R134). -/
def State.leftQueue (l : LineNo) (s : State) : State := { s with boundary := s.boundary.map fun b => b.without l }

/-! ### Placement -/

/-- The placement notice: the calibrator takes its run to RING, the call controller takes nothing (R129, R166). -/
def State.placementNotice (l : LineNo) (e : Entry) (s : State) : State :=
  match e.reqType with
  | .test => s.updLine l fun x => { x with run := x.run.map fun r => { r with phase := .ring } }
  | .terminating | .revert | .alarm => s

/-- The entry as its placement leaves it (R129). -/
def Entry.placedAt (e : Entry) (φ : Nat) : Entry := { e with state := .placed φ, waited := 0, delayed := false }

/-- The placement ends a suspension or a reported wait, so the host hears of it (R129). -/
def Entry.resumes (e : Entry) : Bool := e.state == .suspended || e.delayed

/-- A successful search places the entry (R129). -/
def State.placeEntry (l : LineNo) (e : Entry) (φ : Nat) (s : State) : State :=
  let s1 := s.updArb fun a =>
    { a with
      rows := a.rows.set l (some (e.placedAt φ))
      profile := s.profileWith e φ
      placedOrder := a.placedOrder.filter (· != l) ++ [l]
      waitQueue := a.waitQueue.filter (· != l) }
  let s2 := (s1.placementNotice l e).leftQueue l
  if e.resumes then s2.markRing l .resumed none (e.placedAt φ) 0 0 else s2

/-! ### The wait queue -/

/-- The queue as its two sections (R131). -/
def State.alarmSection (s : State) : List LineNo := s.arb.waitQueue.filter s.alarmEntry

/-- The ordinary section of the queue (R131). -/
def State.ordinarySection (s : State) : List LineNo := s.arb.waitQueue.filter fun l => !s.alarmEntry l

/-- A WAITING entry joins the queue: an ordinary one at the tail, an ALARM one at the end of the ALARM section
(R131). -/
def State.joinWaiting (l : LineNo) (s : State) : State :=
  if s.alarmEntry l then
    s.updArb fun a => { a with waitQueue := s.alarmSection ++ [l] ++ s.ordinarySection }
  else s.updArb fun a => { a with waitQueue := a.waitQueue ++ [l] }

/-- Entries suspended in one event, given oldest placed first, join the front of their sections (R131). -/
def State.joinSuspended (ls : List LineNo) (s : State) : State :=
  s.updArb fun a =>
    { a with
      waitQueue := ls.filter s.alarmEntry ++ s.alarmSection
        ++ (ls.filter fun l => !s.alarmEntry l) ++ s.ordinarySection }

/-! ### Standby events -/

/-- The supply becomes WARMING (R141, R143). -/
def State.wakeSupply (s : State) : State :=
  (s.updArb fun a => { a with supply := .warming, warmUpCount := a.warmUpFrames }).markSupply .warming none

/-- The event is named in the reload mask, so the standby count is loaded (R139). -/
def State.reloadStandby (ev : StandbyEvent) (s : State) : State :=
  if s.arb.reloadMask.getLsbD ev.bit then s.updArb fun a => { a with standbyCount := a.standbyFrames } else s

/-- The event wakes a supply in STANDBY: a REQUEST always, OFFHOOK and DIGIT when the wake mask names them (R139). -/
def Arbiter.wakes (a : Arbiter) (ev : StandbyEvent) : Bool :=
  a.supply == .standby && (ev == .request || a.wakeMask.getLsbD ev.bit)

/-- A standby event (R139). -/
def State.standbyEvent (ev : StandbyEvent) (s : State) : State :=
  let s1 := s.reloadStandby ev
  if s1.arb.wakes ev then s1.wakeSupply else s1

/-! ### Requests and removal -/

/-- A new entry (R125). -/
def Entry.new (cls : EntryClass) (typ : RequestType) (a : Voice) (b : Option Voice) : Entry :=
  ⟨cls, typ, a, b, .waiting, 0, false⟩

/-- The condition for an immediate search on a request (R130), judged before the entry joins the queue. -/
def State.immediate (cls : EntryClass) (s : State) : Bool :=
  s.arb.supply == .on &&
    (match cls with
     | .ordinary => s.arb.waitQueue.isEmpty
     | .alarm => s.alarmSection.isEmpty)

/-- Admission of a new entry that stands in its row (R130). -/
def State.tryAdmission (l : LineNo) (e : Entry) (s : State) : State :=
  if s.immediate e.cls then
    match s.search e with
    | some φ => s.placeEntry l e φ
    | none => s.joinWaiting l
  else s.joinWaiting l

/-- A request to the arbiter (R125): the entry is written, the REQUEST event is taken, admission is tried. -/
def State.request (l : LineNo) (e : Entry) (s : State) : State :=
  ((s.setRow l (some e)).standbyEvent .request).tryAdmission l e

/-- Removal of a line's entry, if it holds one (R137, R152): its loads, its places in the lists, its row and its play
record go. -/
def State.removeEntry (l : LineNo) (s : State) : State :=
  match s.row l with
  | none => s
  | some e =>
    let s1 := s.updArb fun a =>
      { a with
        rows := a.rows.set l none
        profile := s.profileLess a.profile e
        placedOrder := a.placedOrder.filter (· != l)
        waitQueue := a.waitQueue.filter (· != l) }
    (s1.updLine l fun x => { x with play := none }).leftQueue l

end Sys2Proof.Machine
end

