-- ==== Sys2Proof/Machine/CallCore.lean ====
section
/-! DEFINITION. What every change of call state does (R63, R66, R67, R93), the opening of a record (R92), the request
for a party test (R52), the start of an origination (R69), and the write of a baseline with its LEAKY judgement (R57,
R58, R172). -/

namespace Sys2Proof.Machine

/-! ### Baseline -/

/-- Writing a baseline and judging LEAKY against the line's leak limit; a change marks LINE_FAULT (R58). -/
def State.writeBaseline (l : LineNo) (b : Nat) (s : State) : State :=
  let before := (s.line l).leaky
  let after := leakyAfter (s.line l).leakLimit b before
  let s1 := s.updLine l fun x => { x with baseline := b, leaky := after }
  if after = before then s1
  else s1.markLineFault l (if after then .leakySet else .leakyCleared)

/-! ### Party test -/

/-- A party test just asked for: both sums and the scan number 0 (R52). -/
def PartyTest.started : PartyTest := ⟨true, 0, 0, 0⟩

/-! ### Records -/

/-- A record just opened: every optional field absent, early-lift count 0 (R69, R92). That its overwritten flag is no until
its completion sets it (R93), and is so read by CALL_RECORD_READ (R94, R197), is the model's choice (log 34). -/
def Record.opened (k : RecordKind) (t : Stamp) : Record :=
  ⟨k, none, none, none, DigitBuffer.empty, t, none, 0, none, 0, false⟩

/-- The current record of a line changed by `f`, if it has one. -/
def State.updRecord (l : LineNo) (f : Record → Record) (s : State) : State :=
  s.updLine l fun x => { x with record := x.record.map f }

/-- The caller slot of a line's current record. -/
def Line.caller (x : Line) : Option Slot :=
  match x.record with
  | none => none
  | some r => r.caller

/-- The called slot of a line's current record. -/
def Line.called (x : Line) : Option Slot :=
  match x.record with
  | none => none
  | some r => r.called

/-- Entering these states completes an open record (R93). -/
def CallState.completes : CallState → Bool
  | .idle | .reorder | .disabled => true
  | .ident | .dial | .exchWait | .exchange | .termRing | .revertTone | .revertRing | .revertCheck | .revertTalk
  | .alarmRing | .lockout | .test | .calibrating => false

/-- The record as its completion leaves it (R93): the digits held, the end stamp, the cause, and whether an earlier
CALL_END report of the line is still pending. -/
def State.completedRecord (s : State) (l : LineNo) (r : Record) (cause : EndCause) : Record :=
  { r with
    digits := (s.line l).digits
    endStamp := s.stamp
    cause := some cause
    overwritten := s.pendingLine .callEnd l }

/-- Completion of a line's open record, if it has one (R93). -/
def State.completeRecord (l : LineNo) (cause : EndCause) (s : State) : State :=
  match (s.line l).record with
  | none => s
  | some r =>
    let done := s.completedRecord l r cause
    (s.updLine l fun x => { x with record := none, completed := some done }).markLine .callEnd l
      (lineByte l :: recordBytes done done.digits)

/-! ### Call state -/

/-- The count with which entering a state arms the call timer; none for an untimed state (R67). RING_PARTY replaces
the count of TERM_RING when it carries a time of its own. -/
def Settings.armed (t : Settings) : CallState → Option Nat
  | .dial => some (t.firstDigit * 10)
  | .exchWait => some (t.exchangeWait * 10)
  | .termRing => some (t.termNoAnswer * 10)
  | .reorder => some (t.reorder * 10)
  | .revertTone => some (t.hangupWait * 10)
  | .revertRing => some (t.revertNoAnswer * 10)
  | .disabled | .idle | .ident | .exchange | .revertCheck | .revertTalk | .alarmRing | .lockout | .test
  | .calibrating => none

/-- Marking a STATE report for the state as it stands (R63, R199). -/
def State.markState (l : LineNo) (prev : CallState) (cause : Option EndCause) (s : State) : State :=
  s.markLine .state l
    ([lineByte l, (s.line l).call.code, prev.code, endCauseCode cause,
      flagByte (s.line l).alarmPending.isSome] ++ stampBytes s.stamp)

/-- The tracking window of a line as a new call state leaves it: leaving IDLE ends the window, so that the next begins with
a count of 0 (R56). That it ends in the event that leaves IDLE, as R88 says of test access, is DEDUCED (log 13). -/
def Line.trackAfter (x : Line) (new : CallState) : Tracking :=
  if x.call = .idle ∧ new ≠ .idle then Tracking.empty else x.track

/-- The call state set, its timer armed or stopped, dialling begun set to no (R66, R67), and the tracking window ended when
the line leaves IDLE (R56). -/
def State.putCall (l : LineNo) (new : CallState) (s : State) : State :=
  s.updLine l fun x =>
    { x with call := new, timer := s.settings.armed new, dialBegun := false, track := x.trackAfter new }

/-- Entering a call state that completes an open record with `cause` (R93), with the STATE report of R63. -/
def State.endCall (l : LineNo) (new : CallState) (cause : EndCause) (s : State) : State :=
  let s1 := (s.completeRecord l cause).putCall l new
  if (s.line l).call = new then s1
  else s1.markState l (s.line l).call (if (s.line l).record.isSome then some cause else none)

/-- Entering a call state with no record to complete, with the STATE report of R63. -/
def State.enter (l : LineNo) (new : CallState) (s : State) : State :=
  let s1 := s.putCall l new
  if (s.line l).call = new then s1 else s1.markState l (s.line l).call none

/-- The state a release leads to: REORDER if the hook machine holds OFFHOOK, otherwise IDLE (R76, R87). -/
def Line.releaseTarget (x : Line) : CallState := if x.hook.holdsOffhook then .reorder else .idle

/-! ### Origination -/

/-- A new call on a line: a record of a kind opened, digit buffer and outgoing list emptied (R69, R77, R84). -/
def State.openCall (l : LineNo) (r : Record) (s : State) : State :=
  s.updLine l fun x => { x with record := some r, digits := DigitBuffer.empty, out := OutList.empty }

/-- The start of an origination (R69): IDENT, an ORIGINATED record, a party test, the OFFHOOK standby event. -/
def State.originate (l : LineNo) (s : State) : State :=
  (((s.openCall l (Record.opened .originated s.stamp)).updLine l fun x =>
    { x with test := PartyTest.started }).enter l .ident).standbyEvent .offhook

end Sys2Proof.Machine
end

