-- ==== Sys2Proof/Machine/LinePlan.lean ====
section
/-! DEFINITION. The line plan: identities and references of a party table (R10, R11, R27), the commit checks (R15),
activation (R16), and suffix decoding (R18). -/

namespace Sys2Proof.Machine

/-- The present entry of a slot, if the slot is present. -/
def PartyTable.presentEntry (t : PartyTable) (i : Slot) : Option PartyEntry :=
  if (t.entries.get i).present then some (t.entries.get i) else none

/-- Two present slots share a ring identity: side, channel and pattern are equal (R10, R15). -/
def PartyTable.sameIdentity (t : PartyTable) (i j : Slot) : Bool :=
  match t.presentEntry i, t.presentEntry j with
  | some a, some b => a.side == b.side && a.channel == b.channel && a.pattern == b.pattern
  | _, _ => false

/-- The lowest other slot with the identity of a present slot. -/
def PartyTable.twin (t : PartyTable) (i : Slot) : Option Slot :=
  slots.find? fun j => j != i && t.sameIdentity i j

/-- The two slots of an AMBIGUOUS refusal (R15): the lowest slot whose identity another present slot has, and the
lowest other slot with it. -/
def PartyTable.ambiguous (t : PartyTable) : Option (Slot × Slot) :=
  match slots.find? fun i => (t.twin i).isSome with
  | none => none
  | some i => (t.twin i).map fun j => (i, j)

/-- A table references a pattern: as a present party's or as the alarm pattern (R10). -/
def PartyTable.references (t : PartyTable) (p : PatternNo) : Bool :=
  (slots.any fun i => (t.entries.get i).present && (t.entries.get i).pattern == p) || t.alarmPattern == some p

/-- The 32 patterns in ascending order. -/
def patterns : List PatternNo := (List.range 32).map (Fin.ofNat 32)

/-- A cadence slot is DEFINED (R22). -/
def State.defined (s : State) (p : PatternNo) : Bool := (s.cadence.get p).isSome

/-- The lowest pattern that a table references and that is not DEFINED (R15). -/
def State.undefinedReference (s : State) (t : PartyTable) : Option PatternNo :=
  patterns.find? fun p => t.references p && !s.defined p

/-- A call state in which a pending commit is activated at a frame boundary (R16). -/
def CallState.activates : CallState → Bool
  | .idle | .disabled | .lockout => true
  | .ident | .dial | .exchWait | .exchange | .termRing | .revertTone | .revertRing | .revertCheck | .revertTalk
  | .alarmRing | .reorder | .test | .calibrating => false

/-- Activation of a line's pending commit (R16). -/
def State.activate (l : LineNo) (s : State) : State :=
  (s.updLine l fun x => { x with active := x.staged, commitPending := false }).markLine .plan l
    (lineByte l :: stampBytes s.stamp)

/-- The line plan's work for a line at a frame boundary (R16). -/
def State.activation (l : LineNo) (s : State) : State :=
  if (s.line l).commitPending && (s.line l).call.activates then s.activate l else s

/-- The boundary below a line's run of suffixes: B(L - 1), with B(-1) taken as 0 (R18). -/
def State.lowerBoundary (s : State) (l : LineNo) : Nat :=
  if l.val = 0 then 0 else s.numbering.get (Fin.ofNat 16 (l.val - 1))

/-- Decoding a suffix to a line and slot, none when it is unassigned (R18). -/
def State.decodeSuffix (s : State) (x : Nat) : Option (LineNo × Slot) :=
  if s.numbering.get 15 ≤ x then none
  else match lineNos.find? fun l => decide (x < s.numbering.get l) with
    | none => none
    | some l =>
      let n := x - s.lowerBoundary l
      if 8 ≤ n then none
      else if ((s.line l).active.entries.get (Fin.ofNat 8 n)).present then some (l, Fin.ofNat 8 n) else none

/-- The alarm voice of a line's active table: none when the alarm pattern is NONE or the line's load on the alarm
channel is 0 (R83, R84). -/
def Line.alarmVoice (x : Line) : Option Voice :=
  match x.active.alarmPattern with
  | none => none
  | some p =>
    if x.loads.get x.active.alarmChannel = 0 then none
    else some ⟨.bridged, x.active.alarmChannel, p, x.loads.get x.active.alarmChannel⟩

/-- The voice of a party: its identity with the line's load on its channel (R77, R106). -/
def Line.partyVoice (x : Line) (e : PartyEntry) : Voice := ⟨e.side, e.channel, e.pattern, x.loads.get e.channel⟩

end Sys2Proof.Machine
end

