-- ==== Sys2Proof/Machine/Calibrator.lean ====
section
/-! DEFINITION. The trip calibrator: the phases of a run (R164 to R167), lifts and suspension (R168, R169), the
working out of the results (R170, R171), completion and failure (R172), and the count of the wait (R166). -/

namespace Sys2Proof.Machine

/-- A channel is in a channel mask. -/
def inMask (m : BitVec 4) (c : Channel) : Bool := m.getLsbD c.val

/-- A channel of the run has a measurement. -/
def Run.measured (r : Run) (c : Channel) : Bool := (r.meas.get c).isSome

/-- The channels measured, as bits 4-7 of offset 6 of the report (R199). -/
def Run.measuredBits (r : Run) : Nat :=
  (if r.measured 0 then 16 else 0) + (if r.measured 1 then 32 else 0) + (if r.measured 2 then 64 else 0)
    + (if r.measured 3 then 128 else 0)

/-- The AC and DC average of a channel in the report; 0 for a channel not measured (R199). -/
def Run.measBytes (r : Run) (c : Channel) : List Byte :=
  match r.meas.get c with
  | none => [0, 0, 0, 0]
  | some (ac, dc) => toBytes2 ac ++ toBytes2 dc

/-- Marking a CALIBRATION report for the run just ended, with the line's values as they stand (R172, R199). -/
def State.markCalibration (l : LineNo) (r : Run) (s : State) : State :=
  let x := s.line l
  s.markLine .calibration l
    ([lineByte l, x.calStatus.code, calCauseCode x.calCause, r.method.code, r.phase.code,
      (match r.phase with | .leak => 0xFF | .wait | .ring => toByte r.channel.val),
      toByte (r.mask.toNat + r.measuredBits)]
      ++ r.measBytes 0 ++ r.measBytes 1 ++ r.measBytes 2 ++ r.measBytes 3
      ++ toBytes2 x.baseline
      ++ [toByte (x.loads.get 0), toByte (x.loads.get 1), toByte (x.loads.get 2), toByte (x.loads.get 3)]
      ++ toBytes2 x.tripThreshold ++ stampBytes s.stamp)

/-! ### Ending a run -/

/-- The failure of a line's run, if it has one (R172), without the change of call state that the cause gives. -/
def State.failRun (l : LineNo) (cause : CalCause) (s : State) : State :=
  match (s.line l).run with
  | none => s
  | some r =>
    ((s.removeEntry l).updLine l fun x =>
      { x with calStatus := .failed, calCause := some cause, run := none }).markCalibration l r

/-- The failure of a run whose line goes to IDLE (R172). -/
def State.failToIdle (l : LineNo) (cause : CalCause) (s : State) : State :=
  match (s.line l).run with
  | none => s
  | some _ => (s.failRun l cause).enter l .idle

/-- DONE (R172): baseline, measured loads and threshold written together, LEAKY judged, CALIBRATION marked, IDLE. -/
def State.completeRun (l : LineNo) (r : Run) (loads : Tab 4 Nat) (threshold : Nat) (s : State) : State :=
  let s1 := s.updLine l fun x =>
    { x with loads := loads, tripThreshold := threshold, calStatus := .done, calCause := none, run := none }
  ((s1.writeBaseline l (r.leakAvg.getD 0)).markCalibration l r).enter l .idle

/-! ### Working out the results -/

/-- The AC average divided by the ringer unit current, rounded up (R170). -/
def newLoad (ac unit : Nat) : Nat := (ac + unit - 1) / unit

/-- The loads as the run would write them: the measured channels' new, the others kept (R170, R172). -/
def Run.newLoads (r : Run) (unit : Nat) (old : Tab 4 Nat) : Tab 4 Nat :=
  Tab.build fun c =>
    match r.meas.get c with
    | none => old.get c
    | some (ac, _) => newLoad ac unit

/-- The measured channels. -/
def Run.measuredChannels (r : Run) : List Channel := channels.filter r.measured

/-- The DC rise of a channel: its DC average less the leak average, not below 0 (R171). -/
def Run.rise (r : Run) (c : Channel) : Nat :=
  match r.meas.get c with
  | none => 0
  | some (_, dc) => dc - r.leakAvg.getD 0

/-- The largest DC rise of the measured channels (R171). -/
def Run.largestRise (r : Run) : Nat := max (max (r.rise 0) (r.rise 1)) (max (r.rise 2) (r.rise 3))

/-- The trip threshold by the run's method, or MARGIN (R171). -/
def Run.threshold (r : Run) (answerCurrent : Nat) : Except CalCause Nat :=
  match r.method with
  | .midpoint =>
    if answerCurrent < r.largestRise + 20 then .error .margin else .ok ((r.largestRise + answerCurrent) / 2)
  | .hold => .ok (r.hold.getD 0)

/-- A threshold outside the run's bounds (R171). -/
def Run.outOfBounds (r : Run) (t : Nat) : Bool :=
  match r.bounds with
  | none => false
  | some (lo, hi) => t < lo || hi < t

/-- The results of a run, or the cause of its failure, judged in the order of R170 and R171. -/
def Run.results (r : Run) (unit answerCurrent : Nat) (old : Tab 4 Nat) : Except CalCause (Tab 4 Nat × Nat) :=
  let loads := r.newLoads unit old
  if r.measuredChannels.any fun c => 40 < loads.get c then .error .overload
  else if r.measuredChannels.all fun c => loads.get c == 0 then .error .noRinger
  else match r.threshold answerCurrent with
    | .error e => .error e
    | .ok t => if r.outOfBounds t then .error .bounds else .ok (loads, t)

/-- The lowest channel whose new load is above 40 (R170). -/
def Run.overloadedChannel (r : Run) (unit : Nat) (old : Tab 4 Nat) : Option Channel :=
  r.measuredChannels.find? fun c => decide (40 < (r.newLoads unit old).get c)

/-- The run as the data of its failure show it: those of an OVERLOAD name, as the channel, the lowest overloaded one
(R170; DEDUCED, log 14). -/
def Run.failing (r : Run) (unit : Nat) (old : Tab 4 Nat) (e : CalCause) : Run :=
  if e = .overload then { r with channel := (r.overloadedChannel unit old).getD r.channel } else r

/-- COMPUTE, at the last burst-end notice of a run (R170 to R172). -/
def State.computeRun (l : LineNo) (r : Run) (s : State) : State :=
  match r.results s.arb.unitCurrent s.settings.answerCurrent (s.line l).loads with
  | .error e =>
    (s.updLine l fun x => { x with run := some (r.failing s.arb.unitCurrent x.loads e) }).failToIdle l e
  | .ok (loads, t) => s.completeRun l r loads t

/-! ### WAIT and RING -/

/-- The request load of a channel: the line's load on it, or the assumed load (R165). -/
def State.requestLoad (s : State) (l : LineNo) (f : Channel) : Nat :=
  if 0 < (s.line l).loads.get f then (s.line l).loads.get f else s.arb.assumedLoad

/-- Each of the four window capacities of a channel is below a load (R165). -/
def Arbiter.tooSmall (a : Arbiter) (f : Channel) (load : Nat) : Bool :=
  let caps := a.caps.get f
  caps.get 0 < load && caps.get 1 < load && caps.get 2 < load && caps.get 3 < load

/-- The run as WAIT for a channel begins (R165). -/
def Run.waiting (r : Run) (f : Channel) (load : Nat) : Run :=
  { r with phase := .wait, channel := f, waitCount := 0, reqLoad := load }

/-- The TEST entry of a calibration run (R165). -/
def Entry.calibration (f : Channel) (load : Nat) : Entry := Entry.new .ordinary .test ⟨.bridged, f, 0, load⟩ none

/-- The start of WAIT for a channel (R165): the request load, the judgement of the window capacities, the request. -/
def State.beginWait (l : LineNo) (f : Channel) (s : State) : State :=
  match (s.line l).run with
  | none => s
  | some r =>
    let load := s.requestLoad l f
    let s1 := s.updLine l fun x => { x with run := some (r.waiting f load) }
    if s.arb.tooSmall f load then s1.failToIdle l .supply else s1.request l (Entry.calibration f load)

/-- The lowest channel of the mask above the current one that has no measurement (R167). -/
def Run.nextChannel (r : Run) : Option Channel :=
  channels.find? fun c => inMask r.mask c && decide (r.channel < c) && !r.measured c

/-- A burst-end notice taken by the calibrator (R159, R167): `n` measured scans with the averages `ac` and `dc`. -/
def State.burstEnd (l : LineNo) (n ac dc : Nat) (s : State) : State :=
  match (s.line l).run with
  | none => s
  | some r =>
    let s1 := s.removeEntry l
    if n = 0 then s1.failToIdle l .supply
    else
      let r1 : Run := { r with meas := r.meas.set r.channel (some (ac, dc)) }
      let s2 := s1.updLine l fun x => { x with run := some r1 }
      match r1.nextChannel with
      | some f => s2.beginWait l f
      | none => s2.computeRun l r1

/-- The calibrator's count at a frame boundary in WAIT (R166). -/
def State.calWaitCount (l : LineNo) (s : State) : State :=
  match (s.line l).run with
  | none => s
  | some r =>
    match r.phase with
    | .leak | .ring => s
    | .wait =>
      let s1 := s.updLine l fun x => { x with run := some { r with waitCount := r.waitCount + 1 } }
      if 10 ≤ r.waitCount + 1 then s1.failToIdle l .supply else s1

/-! ### LEAK -/

/-- A scan in LEAK (R164): the reading is added; at the 100th the average is judged against the leak limit. -/
def State.leakScan (l : LineNo) (reading : Nat) (s : State) : State :=
  match (s.line l).run with
  | none => s
  | some r =>
    match r.phase with
    | .wait | .ring => s
    | .leak =>
      let r1 : Run := { r with leakScans := r.leakScans + 1, leakSum := r.leakSum + reading }
      let s1 := s.updLine l fun x => { x with run := some r1 }
      if r1.leakScans < 100 then s1
      else
        let avg := r1.leakSum / 100
        if (s.line l).leakLimit ≤ avg then s1.failToIdle l .leakHigh
        else
          match channels.find? (inMask r.mask) with
          | none => s1
          | some f => (s1.updLine l fun x => { x with run := some { r1 with leakAvg := some avg } }).beginWait l f

/-! ### Lifts -/

/-- A lift during a run (R168): the run fails OFFHOOK and the line begins an origination. A lift found by a ring trip
also takes the held hook machine to OFFHOOK with its counts at 0. -/
def State.calibrationLift (l : LineNo) (m : Manner) (s : State) : State :=
  let s1 := s.failRun l .offhook
  let s2 := match m with
    | .trip => s1.updLine l fun x => { x with hook := Hook.offhookClear }
    | .silent => s1
  s2.originate l

end Sys2Proof.Machine
end

