-- ==== Sys2Proof/Machine/Boundary.lean ====
section
/-! DEFINITION. The arbiter's work at a frame boundary, part by part in the order of R132: eviction (R132), warm-up
(R141), the queue walk (R133), wait counting (R134), standby counting (R140). Suspension (R136) and the fault events
(R122, R135) stand here too. -/

namespace Sys2Proof.Machine

/-! ### Suspension -/

/-- An entry withdrawn: SUSPENDED, with a new wait (R131, R136). -/
def Entry.suspendedEntry (e : Entry) : Entry := { e with state := .suspended, waited := 0, delayed := false }

/-- The entry of a line withdrawn from the profile, the placed order list and the ring engine (R136, R152). -/
def State.withdraw (l : LineNo) (s : State) : State :=
  match s.row l with
  | none => s
  | some e =>
    (s.updArb fun a =>
      { a with
        rows := a.rows.set l (some e.suspendedEntry)
        profile := s.profileLess a.profile e
        placedOrder := a.placedOrder.filter (· != l) }).updLine l fun x => { x with play := none }

/-- The RING report of a suspended line (R136, R144). The queue position is that after every entry of the event has
joined the queue (log 11). -/
def State.markSuspended (cause : SuspendCause) (l : LineNo) (s : State) : State :=
  match s.row l with
  | none => s
  | some e => s.markRing l .suspended (some cause) e 0 (s.arb.queuePosition l)

/-- The suspension notice: the calibrator fails its run, the call controller does nothing (R136, R169). -/
def State.suspensionNotice (l : LineNo) (s : State) : State :=
  match s.row l with
  | none => s
  | some e => if e.reqType = .test then s.failToIdle l .supply else s

/-- The suspension in one event of lines given in placed order (R131, R136). -/
def State.suspendMany (ls : List LineNo) (cause : SuspendCause) (s : State) : State :=
  let s1 := ls.foldl (fun t l => t.withdraw l) s
  let s2 := s1.joinSuspended ls
  let s3 := ls.foldl (fun t l => t.markSuspended cause l) s2
  ls.foldl (fun t l => t.suspensionNotice l) s3

/-! ### Eviction -/

/-- A point is overloaded in a profile (R132). -/
def State.overloaded (s : State) (p : Tab 4 (Tab 120 Nat)) (c : Channel) (cs : Nat) : Bool :=
  decide (s.capacity c cs < profileAt p c cs)

/-- An entry contributes to an overloaded point of a profile (R132). -/
def State.contributes (s : State) (p : Tab 4 (Tab 120 Nat)) (e : Entry) (φ : Nat) : Bool :=
  (List.range 120).any fun cs =>
    match s.voiceOn e φ cs with
    | none => false
    | some v => s.overloaded p v.channel cs

/-- The eviction walk over lines in the order in which they are reached: the profile it leaves and the lines it
suspends (R132). -/
def State.evictWalk (s : State) (p : Tab 4 (Tab 120 Nat)) : List LineNo → List LineNo
  | [] => []
  | l :: ls =>
    match s.row l with
    | none => s.evictWalk p ls
    | some e =>
      match e.state with
      | .waiting | .suspended => s.evictWalk p ls
      | .placed φ =>
        if s.contributes p e φ then l :: s.evictWalk (s.profileWithout p e φ) ls else s.evictWalk p ls

/-- The order of the eviction walks: newest first, the ORDINARY entries and then the ALARM entries (R132). -/
def State.evictOrder (s : State) : List LineNo :=
  (s.arb.placedOrder.reverse.filter fun l => !s.alarmEntry l) ++ s.arb.placedOrder.reverse.filter s.alarmEntry

/-- The lines that eviction suspends, in placed order (R132, R136). -/
def State.evicted (s : State) : List LineNo :=
  let out := s.evictWalk s.arb.profile s.evictOrder
  s.arb.placedOrder.filter fun l => out.contains l

/-- Eviction (R132). -/
def State.evict (s : State) : State := s.suspendMany s.evicted .capacity

/-! ### Warm-up -/

/-- A warm-up ends at this boundary (R141). -/
def Arbiter.warmUpEnds (a : Arbiter) : Bool := a.supply == .warming && decide (a.warmUpCount ≤ 1)

/-- The supply becomes ON, with its standby count loaded (R140, R141, R143). -/
def State.supplyOn (s : State) : State :=
  (s.updArb fun a => { a with supply := .on, warmUpCount := 0, standbyCount := a.standbyFrames }).markSupply .on none

/-- Warm-up at a frame boundary (R141). -/
def State.warmUp (s : State) : State :=
  match s.arb.supply with
  | .standby | .on => s
  | .warming =>
    if s.arb.warmUpEnds then s.supplyOn else s.updArb fun a => { a with warmUpCount := a.warmUpCount - 1 }

/-! ### The queue walk -/

/-- A voice of the entry is on a faulted channel (R133). -/
def State.needsFaulted (s : State) (e : Entry) : Bool := channels.any fun c => e.uses c && s.arb.faulted c

/-- The walk along the lines of the queue, head first (R133). -/
def State.walk : List LineNo → State → State
  | [], s => s
  | l :: ls, s =>
    match s.row l with
    | none => s.walk ls
    | some e =>
      if s.needsFaulted e then s.walk ls
      else match s.search e with
        | none => s
        | some φ => (s.placeEntry l e φ).walk ls

/-- The queue walk, taken when the supply is ON (R133). -/
def State.walkQueue (s : State) : State := if s.arb.supply = .on then s.walk s.arb.waitQueue else s

/-! ### Wait counting -/

/-- The count of an entry's wait reaches the ring-wait threshold unreported (R134). -/
def Arbiter.delays (a : Arbiter) (e : Entry) : Bool :=
  decide (a.waitThreshold ≤ min 255 (e.waited + 1)) && !e.delayed

/-- A line is counted: it stood in the queue when the boundary was taken and stands there still (R134). A line that left
the queue in between is no longer in `stood` (`State.leftQueue`). -/
def Arbiter.counts (a : Arbiter) (stood : List LineNo) (l : LineNo) : Bool :=
  stood.contains l && a.waitQueue.contains l

/-- The counting of one entry's wait (R134). -/
def State.countWait (l : LineNo) (s : State) : State :=
  match s.row l with
  | none => s
  | some e =>
    let n := min 255 (e.waited + 1)
    if s.arb.delays e then
      let e1 : Entry := { e with waited := n, delayed := true }
      (s.setRow l (some e1)).markRing l .delayed none e1 n (s.arb.queuePosition l)
    else s.setRow l (some { e with waited := n })

/-- Wait counting (R134) for the lines that stood in the queue. -/
def State.countWaits (stood : List LineNo) (s : State) : State :=
  (lineNos.filter (s.arb.counts stood)).foldl (fun t l => t.countWait l) s

/-! ### Standby counting -/

/-- The placement table holds no entry (R140). -/
def Arbiter.empty (a : Arbiter) : Bool := lineNos.all fun l => (a.rows.get l).isNone

/-- The standby count falls at this boundary (R140). -/
def Arbiter.standbyFalls (a : Arbiter) (becameOn : Bool) : Bool := a.supply == .on && a.empty && !becameOn

/-- Standby counting (R140). -/
def State.standbyCounting (becameOn : Bool) (s : State) : State :=
  if s.arb.standbyFalls becameOn then
    if s.arb.standbyCount ≤ 1 then
      (s.updArb fun a => { a with supply := .standby, standbyCount := 0 }).markSupply .standby none
    else s.updArb fun a => { a with standbyCount := a.standbyCount - 1 }
  else s

/-! ### The work as a whole -/

/-- The place of a part in the order of R132. -/
def Stage.rank : Stage → Nat
  | .eviction => 0
  | .warmUp => 1
  | .queueWalk => 2
  | .waitCounting => 3
  | .standbyCounting => 4

/-- A boundary's work not begun. -/
def Boundary.fresh : Boundary := ⟨.eviction, [], false⟩

/-- The next part of the work of a boundary (R132). -/
def State.runStage (b : Boundary) (s : State) : State :=
  match b.next with
  | .eviction => { s with boundary := some ⟨.warmUp, s.arb.waitQueue, false⟩ }.evict
  | .warmUp => { s with boundary := some ⟨.queueWalk, b.stood, s.arb.warmUpEnds⟩ }.warmUp
  | .queueWalk => { s with boundary := some { b with next := .waitCounting } }.walkQueue
  | .waitCounting => { s with boundary := some { b with next := .standbyCounting } }.countWaits b.stood
  | .standbyCounting => { s with boundary := none }.standbyCounting b.becameOn

/-- The parts of the boundary's work from where it stands up to and including a part; `fuel` bounds their number. -/
def State.runUpTo (last : Stage) : Nat → State → State
  | 0, s => s
  | fuel + 1, s =>
    match s.boundary with
    | none => s
    | some b => if b.next.rank ≤ last.rank then (s.runStage b).runUpTo last fuel else s

/-- The parts of the boundary's work up to and including a part. -/
def State.runThrough (last : Stage) (s : State) : State := s.runUpTo last 5

/-- The whole of what is left of the boundary's work. -/
def State.runBoundary (s : State) : State := s.runThrough .standbyCounting

/-- The boundary's work stands at or before a part. -/
def State.stageAhead (s : State) (g : Stage) : Bool :=
  match s.boundary with
  | none => false
  | some b => decide (b.next.rank ≤ g.rank)

/-- The frames-waited count of a line reaches the threshold at the wait counting that comes next (R134). -/
def State.delaysNext (s : State) (l : LineNo) : Bool :=
  match s.boundary, s.row l with
  | some b, some e => s.arb.counts b.stood l && s.arb.delays e
  | _, _ => false

/-- The standby count reaches 0 at the standby counting that comes next (R140). -/
def State.standbyEnds (s : State) : Bool :=
  match s.boundary with
  | none => false
  | some b => s.arb.standbyFalls b.becameOn && decide (s.arb.standbyCount ≤ 1)

/-! ### Fault events -/

/-- The lines of the PLACED entries with a voice on a channel, in placed order (R135). -/
def State.placedOn (s : State) (c : Channel) : List LineNo :=
  s.arb.placedOrder.filter fun l =>
    match s.row l with
    | none => false
    | some e => e.uses c

/-- The assertion of a channel's fault input (R122, R135). -/
def State.assertFault (c : Channel) (s : State) : State :=
  let s1 := s.updArb fun a => { a with faults := a.faults ||| channelBit c }
  (s1.suspendMany (s1.placedOn c) (.fault c)).markSupply .faultSet (some c)

/-- The release of a channel's fault input (R122, R135). -/
def State.releaseFault (c : Channel) (s : State) : State :=
  (s.updArb fun a => { a with faults := a.faults &&& ~~~(channelBit c) }).markSupply .faultCleared (some c)

end Sys2Proof.Machine
end

