-- ==== Sys2Proof/Machine/Clock.lean ====
section
/-! DEFINITION. The frame timebase: how the scans bring a step event (R31), how it moves the position (R31), the follower
states (R33 to R37), the change of role (R32), and the pulse input (R33). -/

namespace Sys2Proof.Machine

/-- The line has been scanned in the present scan period. -/
def Timebase.hasScanned (t : Timebase) (l : LineNo) : Bool := t.scanned.getLsbD l.val

/-- A scan of line `l` is the first of a new scan period of 10 ms: it is the first scan of all, or the line has been
scanned in the present period already. The spec gives the device one scan count and each line its scans (R31, R41); that
a period ends so is the model's choice (log 3). -/
def Timebase.opensPeriod (t : Timebase) (l : LineNo) : Bool := t.scanned == 0 || t.hasScanned l

/-- The first scan of a period is counted; the tenth of the step makes the step event due (R31). -/
def Timebase.countPeriod (t : Timebase) : Timebase :=
  if t.scanCount < 9 then { t with scanCount := t.scanCount + 1 } else { t with stepDue := true }

/-- A scan of line `l` as the timebase takes it (R31). -/
def Timebase.scan (t : Timebase) (l : LineNo) : Timebase :=
  if t.opensPeriod l then { t.countPeriod with scanned := lineBit l }
  else { t with scanned := t.scanned ||| lineBit l }

/-- A step event is owed before a scan of line `l`: the scan would open the eleventh period of the step (R31). -/
def Timebase.owes (t : Timebase) (l : LineNo) : Bool := t.stepDue && t.hasScanned l

/-- A step event's move of the position: the timebase after it, and whether it is a frame boundary (R31). -/
abbrev Move := Timebase × Bool

/-- The ordinary advance of the position (R31). -/
def Timebase.free (t : Timebase) : Move :=
  if t.position = 59 then ({ t with position := 0, parity := !t.parity }, true)
  else ({ t with position := t.position + 1 }, false)

/-- A realignment: the position becomes 0 and the parity changes; the step event is a frame boundary (R34, R35). -/
def Timebase.realign (t : Timebase) : Move := ({ t with position := 0, parity := !t.parity }, true)

/-- ACQUIRING (R34): the spacing count rises while a pulse is remembered, and the latch is judged. -/
def Timebase.acquire (t : Timebase) : Move :=
  let spacing := t.remembered.map (· + 1)
  if !t.latch then { t with remembered := spacing }.free
  else match spacing with
    | none => { t with remembered := some 0 }.free
    | some n =>
      if 59 ≤ n ∧ n ≤ 61 then { t with follower := some .locked, remembered := none }.realign
      else { t with remembered := some 0 }.free

/-- LOCKED and HOLDOVER (R35, R36): `missed` is the state that an unmet window leads to. -/
def Timebase.track (t : Timebase) (missed : Follower) : Move :=
  let met : Timebase := { t with follower := some .locked, windowOpen := false }
  if t.position = 58 then (if t.latch then met.realign else t.free)
  else if t.position = 59 then (if t.latch then met.free else { t with windowOpen := true }.free)
  else if t.position = 0 ∧ t.windowOpen = true then
    (if t.latch then (met, false) else { t with follower := some missed, windowOpen := false }.free)
  else t.free

/-- LOST (R37). -/
def Timebase.lost (t : Timebase) : Move :=
  if t.latch then { t with follower := some .acquiring, remembered := some 0 }.free else t.free

/-- The move of the position by role and follower state (R31, R34 to R37). -/
def Timebase.move (t : Timebase) : Move :=
  match t.role, t.follower with
  | .follower, some .acquiring => t.acquire
  | .follower, some .locked => t.track .holdover
  | .follower, some .holdover => t.track .lost
  | .follower, some .lost => t.lost
  | .follower, none => t.free
  | .alone, _ | .master, _ => t.free

/-- What every step event does besides the move: the stamp rises by 1, the scan count starts again, no step event is due,
the latch is cleared, a MASTER drives its pulse at a frame boundary (R31 to R33). The lines scanned since the tenth period
began stay scanned: a scan takes no order against the step event (R41). -/
def Timebase.stepped (t : Timebase) (boundary : Bool) : Timebase :=
  { t with
    stamp := t.stamp + 1
    scanCount := 0
    stepDue := false
    latch := false
    pulseOut := t.role == .master && boundary }

/-- A step event of the timebase: the timebase after it, and whether it is a frame boundary. -/
def Timebase.advance (t : Timebase) : Move := (t.move.1.stepped t.move.2, t.move.2)

/-- The step event's part in the state: the timebase moves, and a change of follower state marks SYNC (R32). -/
def State.advanceTimebase (s : State) : State :=
  let s1 := s.updTimebase fun t => t.advance.1
  if s1.timebase.follower = s.timebase.follower then s1 else s1.markSync

/-- The step event that comes next is a frame boundary (R31, R34, R35). -/
def State.atBoundary (s : State) : Bool := s.timebase.advance.2

/-- A change of role (R32). That the latch and the remembered pulse are cleared on leaving FOLLOWER too is the model's
choice: R32 says only that the follower state ends (log 28). -/
def Timebase.withRole (t : Timebase) (r : Role) : Timebase :=
  match r with
  | .alone | .master => { t with role := r, follower := none, latch := false, remembered := none, windowOpen := false }
  | .follower =>
    { t with role := r, follower := some .acquiring, latch := false, remembered := none, windowOpen := false }

/-- A pulse on FSYNC sets the latch in the FOLLOWER role, and is disregarded in the others (R32, R33). -/
def Timebase.pulse (t : Timebase) : Timebase :=
  match t.role with
  | .follower => { t with latch := true }
  | .alone | .master => t

/-- The window of a boundary closes unmet at the step event that comes next (R35, R36). -/
def Timebase.windowUnmet (t : Timebase) : Bool :=
  t.role == .follower && (t.follower == some .locked || t.follower == some .holdover)
    && t.position == 0 && t.windowOpen && !t.latch

end Sys2Proof.Machine
end

