-- ==== Sys2Proof/Machine/Reply.lean ====
section
/-! DEFINITION. The forms of a reply's payload (R195): OK with its fields, a refusal with its details, and the form of
a command that names a line set (R182). -/

namespace Sys2Proof.Machine

/-- What carrying out a command gives: the state after it, and the payload of its reply. -/
abbrev Carried := State × List Byte

/-- An OK reply with the fields of the command's entry. -/
def State.ok (s : State) (fields : List Byte := []) : Carried := (s, Status.ok.code :: fields)

/-- A refusal with its detail bytes; nothing changes. -/
def State.refuse (s : State) (st : Status) (details : List Byte := []) : Carried := (s, st.code :: details)

/-- A refusal BUSY or WRONG_STATE, with the line's call state as found (R195). -/
def State.refuseAs (s : State) (st : Status) (l : LineNo) : Carried := s.refuse st [(s.line l).call.code]

/-- An OK reply that carries the call state that the event left (R198). -/
def State.okState (s : State) (l : LineNo) : Carried := s.ok [(s.line l).call.code]

/-- The lines of a set judged one by one, ascending, each by its own state (R182): the state after them all and their
outcomes. -/
def forLines (f : LineNo → State → State × Status) : List LineNo → State → State × List Byte
  | [], s => (s, [])
  | l :: ls, s =>
    let r := f l s
    let rest := forLines f ls r.1
    (rest.1, r.2.code :: rest.2)

/-- A command that names a line set in its first two bytes: the set echoed, then the outcomes (R182, R195). -/
def State.forSet (s : State) (p : List Byte) (f : LineNo → State → State × Status) : Carried :=
  let r := forLines f (linesOf (wordAt p 0)) s
  (r.1, Status.ok.code :: toBytes2 (wordAt p 0) ++ r.2)

end Sys2Proof.Machine
end

