-- ==== Sys2Proof/Machine/CadenceCommands.lean ====
section
/-! DEFINITION. What the cadence and dial plan commands do when they are carried out (R198; R22 to R29, R98, R99). -/

namespace Sys2Proof.Machine

/-- CADENCE_OPEN (R24). -/
def State.carryCadenceOpen (p : List Byte) (s : State) : Carried := { s with edit := ⟨some (patternAt p 0), []⟩ }.ok

/-- How a CADENCE_PUT ends: its status, the segments written, and the list they leave (R25). -/
structure PutResult where
  status : Status
  written : Nat
  segs : List Segment
deriving DecidableEq, Repr

/-- The segments of a CADENCE_PUT taken one at a time: the cursor is judged, then the sum (R25). -/
def putSegments : List Segment → List Segment → Nat → PutResult
  | [], held, n => ⟨.ok, n, held⟩
  | g :: gs, held, n =>
    if 12 ≤ held.length then ⟨.cursorEnd, n, held⟩
    else if 60 < durSum held + g.dur then ⟨.tooLong, n, held⟩
    else putSegments gs (held ++ [g]) (n + 1)

/-- CADENCE_PUT (R25). -/
def State.carryCadencePut (p : List Byte) (s : State) : Carried :=
  match s.edit.bound with
  | none => s.refuse .notOpen
  | some _ =>
    let r := putSegments (segmentsOf p) s.edit.segs 0
    ({ s with edit := { s.edit with segs := r.segs } },
      [r.status.code, toByte r.written, toByte r.segs.length, toByte (durSum r.segs)])

/-- The arbiter entry of a line references a pattern (R27). -/
def State.entryNames (s : State) (p : PatternNo) (l : LineNo) : Bool :=
  match s.row l with
  | none => false
  | some e => e.names p

/-- A line holds a reference of any of the three kinds to a pattern (R27). -/
def State.lineReferences (s : State) (p : PatternNo) (l : LineNo) : Bool :=
  (s.line l).active.references p || ((s.line l).commitPending && (s.line l).staged.references p) || s.entryNames p l

/-- CADENCE_STORE (R26). -/
def State.carryCadenceStore (_p : List Byte) (s : State) : Carried :=
  match s.edit.bound with
  | none => s.refuse .notOpen
  | some k =>
    if durSum s.edit.segs < 60 then s.refuse .incomplete [toByte (durSum s.edit.segs)]
    else if !s.edit.segs.any (·.on) then s.refuse .badCadence
    else match lineNos.find? fun l => s.entryNames k l with
      | some l => s.refuse .inUse [lineByte l]
      | none => { s with cadence := s.cadence.set k (some s.edit.segs), edit := EditBuffer.empty }.ok

/-- CADENCE_READ (R29). -/
def State.carryCadenceRead (p : List Byte) (s : State) : Carried :=
  match s.cadence.get (patternAt p 0) with
  | none => s.ok [toByte (byteAt p 0), 0, 0]
  | some segs => s.ok ([toByte (byteAt p 0), 1, toByte segs.length] ++ segs.flatMap segmentBytes)

/-- CADENCE_CLEAR (R28). -/
def State.carryCadenceClear (p : List Byte) (s : State) : Carried :=
  let k := patternAt p 0
  match lineNos.find? fun l => s.lineReferences k l with
  | some l => s.refuse .inUse [lineByte l]
  | none => { s with cadence := s.cadence.set k none }.ok

/-- DIALPLAN_WRITE (R98). -/
def State.carryDialplanWrite (p : List Byte) (s : State) : Carried :=
  { s with dialPlan := s.dialPlan.set (Fin.ofNat 12 (byteAt p 0)) (dialEntryAt p 1) }.ok

/-- DIALPLAN_READ (R99). -/
def State.carryDialplanRead (_p : List Byte) (s : State) : Carried := s.ok (s.dialPlan.items.flatMap dialEntryBytes)

end Sys2Proof.Machine
end

