-- ==== Sys2Proof/Machine/Reverting.lean ====
section
/-! DEFINITION. The dial plan and reverting calls: matching (R100), the actions (R101), the revert checks (R102,
R103), the request at the hang-up (R106), the lift (R108), and the party-test result in REVERT_CHECK (R110 to R112). -/

namespace Sys2Proof.Machine

/-! ### Matching -/

/-- The length of a dial plan entry (R97). -/
def DialEntry.length (e : DialEntry) : Nat := e.pre.length + e.tail

/-- An enabled entry completes on the digits held (R100, step 1). -/
def DialEntry.completesOn (e : DialEntry) (ds : List Digit) : Bool :=
  e.enabled && e.length == ds.length && e.pre.isPrefixOf ds

/-- The prefix agrees with the digits held at every position that both cover (R100, step 2). -/
def agrees : List Digit → List Digit → Bool
  | p :: ps, d :: ds => p == d && agrees ps ds
  | _, _ => true

/-- An enabled, longer entry agrees with the digits held (R100, step 2). -/
def DialEntry.continues (e : DialEntry) (ds : List Digit) : Bool :=
  e.enabled && decide (ds.length < e.length) && agrees e.pre ds

/-- The outcomes of a judgement (R71, R100). -/
inductive DialOutcome where
  | collect
  | complete (a : Action)
  | unmatched
deriving DecidableEq, Repr

/-- The judgement of the digits held against the dial plan (R100). -/
def judgeDigits (plan : Tab 12 DialEntry) (ds : List Digit) : DialOutcome :=
  match plan.items.find? fun e => e.completesOn ds with
  | some e => .complete e.action
  | none => if plan.items.any fun e => e.continues ds then .collect else .unmatched

/-! ### The exchange request -/

/-- Entry to EXCH_WAIT (R73): the timer, the outgoing list emptied, EXCHANGE_REQUEST marked. -/
def State.enterExchWait (l : LineNo) (s : State) : State :=
  let s1 := (s.updLine l fun x => { x with out := OutList.empty }).enter l .exchWait
  match (s.line l).record with
  | none => s1
  | some r =>
    s1.markLine .exchangeRequest l
      ([lineByte l, r.kind.code, slotByte r.caller] ++ digitList (s.line l).digits.digits)

/-! ### Revert checks -/

/-- The suffix named by the last three digits held (R101). -/
def suffixOf (ds : List Digit) : Nat :=
  match ds.reverse with
  | u :: t :: h :: _ => h.val * 100 + t.val * 10 + u.val
  | _ => 0

/-- The party that the last digit held names as a slot of the caller's own line (R101): digits 1-8, if the slot is
present in the active table. -/
def State.partyOfDigit (s : State) (l : LineNo) (ds : List Digit) : Option (LineNo × Slot) :=
  match ds.reverse with
  | [] => none
  | d :: _ =>
    if 1 ≤ d.val ∧ d.val ≤ 8 then
      let i : Slot := Fin.ofNat 8 (d.val - 1)
      if ((s.line l).active.entries.get i).present then some (l, i) else none
    else none

/-- The revert checks and what follows them (R102, R103), for the called party that the digits name. -/
def State.revertChecks (l : LineNo) (called : Option (LineNo × Slot)) (s : State) : State :=
  let x := s.line l
  if !x.revertAllowed then s.endCall l .reorder .barred
  else match called with
    | none => s.endCall l .reorder .unassigned
    | some (m, i) =>
      if m ≠ l then s.endCall l .reorder .notSameLine
      else
        let s1 := s.updRecord l fun r => { r with called := some i }
        let e := x.active.entries.get i
        if !e.acceptsRevert then s1.endCall l .reorder .notAccepted
        else if x.caller = some i then s1.endCall l .reorder .self
        else if x.loads.get e.channel = 0 then s1.endCall l .reorder .noLoad
        else (s1.updRecord l fun r => { r with kind := .revert }).enter l .revertTone

/-- The action of the completing entry (R101). -/
def State.dialAction (l : LineNo) (a : Action) (s : State) : State :=
  let ds := (s.line l).digits.digits
  match a with
  | .exchange => s.enterExchWait l
  | .refuse => s.endCall l .reorder .noMatch
  | .revertParty => s.revertChecks l (s.partyOfDigit l ds)
  | .revertSuffix => s.revertChecks l (s.decodeSuffix (suffixOf ds))

/-- The consultation of the dial plan with the digits held (R71, R100). -/
def State.consultDialPlan (l : LineNo) (s : State) : State :=
  match judgeDigits s.dialPlan (s.line l).digits.digits with
  | .collect => s
  | .complete a => s.dialAction l a
  | .unmatched =>
    if (s.line l).unmatchedToExchange then s.enterExchWait l else s.endCall l .reorder .noMatch

/-! ### Ringing by turns -/

/-- Voice B of a reverting call: the caller's, if it is known and its channel carries a load (R106). -/
def Line.callerVoice (x : Line) : Option Voice :=
  match x.caller with
  | none => none
  | some i =>
    let e := x.active.entries.get i
    if x.loads.get e.channel = 0 then none else some (x.partyVoice e)

/-- Voice A of a reverting call: the called party's; none when its channel carries no load (R106). -/
def Line.calledVoice (x : Line) : Option Voice :=
  match x.called with
  | none => none
  | some i =>
    let e := x.active.entries.get i
    if x.loads.get e.channel = 0 then none else some (x.partyVoice e)

/-- An on-hook in REVERT_TONE (R105, R106). -/
def State.revertHangup (l : LineNo) (s : State) : State :=
  match (s.line l).calledVoice with
  | none => s.endCall l .idle .noLoad
  | some a => (s.enter l .revertRing).request l (Entry.new .ordinary .revert a (s.line l).callerVoice)

/-- A lift in REVERT_RING (R108). A lift found by a ring trip also takes the held hook machine to OFFHOOK. -/
def State.revertLift (l : LineNo) (m : Manner) (s : State) : State :=
  ((s.removeEntry l).updLine l fun x =>
    { x with
      manner := some m
      hook := (match m with | .trip => Hook.offhookClear | .silent => x.hook)
      test := PartyTest.started }).enter l .revertCheck

/-! ### Answer or early lift -/

/-- A party-test result is the side of a wired set. -/
def TestResult.isSide : TestResult → Side → Bool
  | .tip, .tip => true
  | .ring, .ring => true
  | _, _ => false

/-- The lift is an early lift (R110): the caller is known and side-selective, the result is its side, and the called
entry's side is another. -/
def Line.earlyLift (x : Line) (res : TestResult) : Bool :=
  match x.caller with
  | none => false
  | some i =>
    res.isSide (x.active.entries.get i).side
      && !(match x.called with
           | none => false
           | some j => res.isSide (x.active.entries.get j).side)

/-- Marking an ANSWER report (R78, R85, R112, R199) for the current record of the line. -/
def State.markAnswer (l : LineNo) (m : Manner) (s : State) : State :=
  match (s.line l).record with
  | none => s
  | some r =>
    s.markLine .answer l
      ([lineByte l, r.kind.code, slotByte r.called, m.code] ++ stampBytes s.stamp)

/-- The party-test result taken in REVERT_CHECK (R110 to R112). The kept manner stands as it is after the
ANSWER and after the end of the call, until the next lift replaces it (R111) or a soft reset discards it (R119): what it
holds in between the spec does not say, and that is the model's choice (log 32). -/
def State.revertResult (l : LineNo) (res : TestResult) (s : State) : State :=
  if (s.line l).earlyLift res then
    let s1 := s.updRecord l fun r => { r with early := r.early + 1 }
    match (s.line l).record with
    | none => s1.enter l .revertTone
    | some r => if 3 ≤ r.early + 1 then s1.endCall l .reorder .earlyLift else s1.enter l .revertTone
  else
    let s1 := s.updRecord l fun r => { r with answer := some s.stamp }
    (s1.markAnswer l ((s.line l).manner.getD .silent)).enter l .revertTalk

end Sys2Proof.Machine
end

