-- ==== Sys2Proof/Machine/CallControl.lean ====
section
/-! DEFINITION. The call controller's events: hook events (R64), the party-test result (R70), ring trips (R157),
expiries (R67), digits (R71 to R75), answers (R78, R85), alarms (R84 to R86), disabling and enabling (R90, R91). -/

namespace Sys2Proof.Machine

/-! ### Identification -/

/-- The present slots of a side in the active table. -/
def PartyTable.slotsOnSide (t : PartyTable) (d : Side) : List Slot :=
  slots.filter fun i => (t.entries.get i).present && (t.entries.get i).side == d

/-- The one member of a list that has exactly one. -/
def theOnly {α : Type} : List α → Option α
  | [a] => some a
  | _ => none

/-- The caller that a party-test result in IDENT identifies (R70). -/
def Line.identified (x : Line) : TestResult → Option Slot
  | .tip => theOnly (x.active.slotsOnSide .tip)
  | .ring => theOnly (x.active.slotsOnSide .ring)
  | .both | .neither => none

/-- The party-test result taken in IDENT (R70): caller and result into the record, ORIGINATION marked, DIAL. -/
def State.identify (l : LineNo) (res : TestResult) (s : State) : State :=
  let caller := (s.line l).identified res
  let start := match (s.line l).record with
    | none => 0
    | some r => r.start
  let s1 := s.updRecord l fun r => { r with idResult := some res, caller := caller }
  (s1.markLine .origination l
    ([lineByte l, slotByte caller, testResultCode (some res)] ++ stampBytes start)).enter l .dial

/-- A party-test result handed to the call controller (R64). -/
def State.handResult (l : LineNo) (res : TestResult) (s : State) : State :=
  match (s.line l).call with
  | .ident => s.identify l res
  | .revertCheck => s.revertResult l res
  | .disabled | .idle | .dial | .exchWait | .exchange | .termRing | .revertTone | .revertRing | .revertTalk
  | .alarmRing | .reorder | .lockout | .test | .calibrating => s

/-! ### Digits -/

/-- Appending a digit to the digit buffer, or the overflow flag at 16 (R71). -/
def DigitBuffer.append (b : DigitBuffer) (d : Digit) : DigitBuffer :=
  if b.digits.length < Config.digitLimit then { b with digits := b.digits ++ [d] } else { b with overflow := true }

/-- Appending a digit to the outgoing digit list, or the overflow flag at 16 (R75). -/
def OutList.append (b : OutList) (d : Digit) : OutList :=
  if b.digits.length < Config.digitLimit then { b with digits := b.digits ++ [d] } else { b with overflow := true }

/-- Marking a DIGITS report with the whole outgoing digit list (R75, R199). -/
def State.markDigits (l : LineNo) (s : State) : State :=
  let o := (s.line l).out
  s.markLine .digits l
    ([lineByte l, toByte ((if o.overflow then 1 else 0) + (if o.digitError then 2 else 0))] ++ digitList o.digits)

/-- A digit taken in DIAL (R71): appended, the interdigit timer armed, the dial plan consulted. -/
def State.dialDigit (l : LineNo) (d : Digit) (s : State) : State :=
  (s.updLine l fun x =>
    { x with digits := x.digits.append d, timer := some (s.settings.interdigit * 10) }).consultDialPlan l

/-- A digit handed to the call controller (R64, R71, R74, R75). -/
def State.callDigit (l : LineNo) (d : Digit) (s : State) : State :=
  match (s.line l).call with
  | .dial => s.dialDigit l d
  | .exchWait => s.updLine l fun x => { x with digits := x.digits.append d, out := x.out.append d }
  | .exchange => (s.updLine l fun x => { x with out := x.out.append d }).markDigits l
  | .disabled | .idle | .ident | .termRing | .revertTone | .revertRing | .revertCheck | .revertTalk | .alarmRing
  | .reorder | .lockout | .test | .calibrating => s

/-- A digit error handed to the call controller (R64, R72, R74, R75). -/
def State.callDigitError (l : LineNo) (s : State) : State :=
  match (s.line l).call with
  | .dial => s.endCall l .reorder .badDigit
  | .exchWait => s.updLine l fun x => { x with out := { x.out with digitError := true } }
  | .exchange => (s.updLine l fun x => { x with out := { x.out with digitError := true } }).markDigits l
  | .disabled | .idle | .ident | .termRing | .revertTone | .revertRing | .revertCheck | .revertTalk | .alarmRing
  | .reorder | .lockout | .test | .calibrating => s

/-! ### Answers -/

/-- The first answer in TERM_RING (R78): the entry removed, the answer stamp set, ANSWER marked, EXCHANGE. -/
def State.answer (l : LineNo) (m : Manner) (s : State) : State :=
  (((s.removeEntry l).updRecord l fun r => { r with answer := some s.stamp }).markAnswer l m).enter l .exchange

/-- The first answer in ALARM_RING (R85): as R78, and on to EXCH_WAIT. An answer found by a ring trip also takes the
held hook machine to OFFHOOK. The alarm count stands as it is on a line that leaves ALARM_RING so, or by any way but the
count's own end, until the next alarm or a reset: the spec gives it a meaning in ALARM_RING alone, and that is the model's
choice (log 33). -/
def State.alarmAnswer (l : LineNo) (m : Manner) (s : State) : State :=
  let s1 := (s.removeEntry l).updRecord l fun r => { r with answer := some s.stamp }
  let s2 := match m with
    | .trip => s1.updLine l fun x => { x with hook := Hook.offhookClear }
    | .silent => s1
  (s2.markAnswer l m).enterExchWait l

/-- An off-hook event or a ring trip where it is an answer or a lift (R64, R157, R168). -/
def State.lift (l : LineNo) (m : Manner) (s : State) : State :=
  match (s.line l).call with
  | .termRing => s.answer l m
  | .alarmRing => s.alarmAnswer l m
  | .revertRing => s.revertLift l m
  | .calibrating => s.calibrationLift l m
  | .disabled | .idle | .ident | .dial | .exchWait | .exchange | .revertTone | .revertCheck | .revertTalk
  | .reorder | .lockout | .test => s

/-- An off-hook event (R64): an origination in IDLE, an answer or lift where the line is rung or calibrating. -/
def State.callOffHook (l : LineNo) (s : State) : State :=
  if (s.line l).call = .idle then s.originate l else s.lift l .silent

/-! ### On-hook, flash, pulse -/

/-- An on-hook event (R64, R72, R74, R76, R81, R82, R105, R114). -/
def State.callOnHook (l : LineNo) (s : State) : State :=
  match (s.line l).call with
  | .dial | .exchWait => s.endCall l .idle .abandoned
  | .exchange | .revertTalk => s.endCall l .idle .normal
  | .reorder | .lockout => s.enter l .idle
  | .revertTone => s.revertHangup l
  | .disabled | .idle | .ident | .termRing | .revertRing | .revertCheck | .alarmRing | .test | .calibrating => s

/-- A flash event (R64, R76). -/
def State.callFlash (l : LineNo) (s : State) : State :=
  if (s.line l).call = .exchange then s.markLine .flash l (lineByte l :: stampBytes s.stamp) else s

/-- A pulse notice (R64, R66). -/
def State.callPulse (l : LineNo) (s : State) : State :=
  if (s.line l).call = .dial then s.updLine l fun x => { x with dialBegun := true } else s

/-- One item handed on by a scan (R49, R64). Each digit completion, an error included, is also a DIGIT standby event
(R49, R139). -/
def State.handItem (l : LineNo) (s : State) : HookItem → State
  | .offHook => s.callOffHook l
  | .onHook => s.callOnHook l
  | .digit d => (s.callDigit l d).standbyEvent .digit
  | .digitError => (s.callDigitError l).standbyEvent .digit
  | .flash => s.callFlash l
  | .pulse => s.callPulse l

/-! ### The call timer -/

/-- An expiry taken by the state in force (R67, R72, R74, R79, R81, R105, R109). -/
def State.expiry (l : LineNo) (s : State) : State :=
  match (s.line l).call with
  | .dial => s.endCall l .reorder .abandoned
  | .exchWait => s.endCall l .reorder .noExchange
  | .termRing | .revertRing => (s.removeEntry l).endCall l .idle .noAnswer
  | .reorder => s.enter l .lockout
  | .revertTone => s.endCall l .reorder .noHangup
  | .disabled | .idle | .ident | .exchange | .revertCheck | .revertTalk | .alarmRing | .lockout | .test
  | .calibrating => s

/-- The call timer at a step event (R67): the count falls by 1; at 0 the timer stops and the expiry is taken. -/
def State.callTimerStep (l : LineNo) (s : State) : State :=
  match (s.line l).timer with
  | none => s
  | some n =>
    if n ≤ 1 then (s.updLine l fun x => { x with timer := none }).expiry l
    else s.updLine l fun x => { x with timer := some (n - 1) }

/-! ### Alarms -/

/-- The start of an alarm (R84). -/
def State.startAlarm (l : LineNo) (v : Voice) (frames : Nat) (s : State) : State :=
  ((((s.openCall l (Record.opened .alarm s.stamp)).updLine l fun x =>
    { x with alarmPending := none, alarmCount := frames }).enter l .alarmRing).request l
      (Entry.new .alarm .alarm v none))

/-- A pending alarm at a step event that finds the line IDLE (R84): started, or dropped with its STATE report. -/
def State.pendingAlarmStep (l : LineNo) (s : State) : State :=
  match (s.line l).call, (s.line l).alarmPending with
  | .idle, some frames =>
    match (s.line l).alarmVoice with
    | some v => s.startAlarm l v frames
    | none => (s.updLine l fun x => { x with alarmPending := none }).markState l .idle none
  | _, _ => s

/-- The end of an alarm by its count or by ALARM_STOP (R85, R86). -/
def State.endAlarm (l : LineNo) (s : State) : State := (s.removeEntry l).endCall l .idle .alarmEnd

/-- The alarm count at a frame boundary (R85). -/
def State.alarmCountStep (l : LineNo) (s : State) : State :=
  if (s.line l).call = .alarmRing then
    let n := (s.line l).alarmCount - 1
    let s1 := s.updLine l fun x => { x with alarmCount := n }
    if n = 0 then s1.endAlarm l else s1
  else s

/-! ### Disabling and enabling -/

/-- A line is disabled (R90). The option flag is cleared by the event that disables it. -/
def State.disableLine (l : LineNo) (s : State) : State :=
  let s1 := (s.removeEntry l).failRun l .canceled
  let s2 := s1.updLine l fun x => { x with test := PartyTest.idle, saved := none, alarmPending := none }
  (s2.endCall l .disabled .disabled).updLine l fun x =>
    { x with digits := DigitBuffer.empty, out := OutList.empty }

/-- A line in DISABLED is enabled (R91): IDLE, its hook machine restarted ONHOOK with counts 0 (R51). -/
def State.enableLine (l : LineNo) (s : State) : State :=
  if (s.line l).call = .disabled then
    (s.updLine l fun x => { x with hook := Hook.onhookClear }).enter l .idle
  else s

end Sys2Proof.Machine
end

