-- ==== Sys2Proof/Machine/CallCommands.lean ====
section
/-! DEFINITION. What the call, alarm, test and calibration commands do when they are carried out (R198; R74 to R91,
R163, R173). -/

namespace Sys2Proof.Machine

/-! ### Ringing a party -/

/-- The line and slot that a RING_PARTY names: itself, or by a suffix (R77, R198). -/
def State.ringAddress (s : State) (p : List Byte) : Option (LineNo × Slot) :=
  if byteAt p 0 = 0 then some (lineAt p 1, slotAt p 2) else s.decodeSuffix (wordAt p 1)

/-- The count that RING_PARTY arms the call timer with (R67, R77). -/
def State.noAnswerCount (s : State) (seconds : Nat) : Nat :=
  if seconds = 0 then s.settings.termNoAnswer * 10 else seconds * 10

/-- RING_PARTY accepted for a party with its entry in the active table (R77). -/
def State.ringAccepted (l : LineNo) (i : Slot) (e : PartyEntry) (seconds : Nat) (s : State) : State :=
  let opened := s.openCall l { Record.opened .terminated s.stamp with called := some i }
  let rung := (opened.enter l .termRing).updLine l fun x => { x with timer := some (s.noAnswerCount seconds) }
  rung.request l (Entry.new .ordinary .terminating ((s.line l).partyVoice e) none)

/-- The checks of RING_PARTY on a line and slot, and what follows them (R77). -/
def State.ringParty (l : LineNo) (i : Slot) (seconds : Nat) (s : State) : Carried :=
  let x := s.line l
  let e := x.active.entries.get i
  if !x.fitted then s.refuse .notFitted
  else if !x.enabled then s.refuse .disabled
  else if x.call ≠ .idle then s.refuseAs .busy l
  else if !e.present then s.refuse .unassigned
  else if x.loads.get e.channel = 0 then s.refuse .noLoad
  else (s.ringAccepted l i e seconds).ok [lineByte l, slotByte (some i)]

/-- RING_PARTY (R77). -/
def State.carryRingParty (p : List Byte) (s : State) : Carried :=
  match s.ringAddress p with
  | none => s.refuse .unassigned
  | some (l, i) => s.ringParty l i (wordAt p 3)

/-- RING_CANCEL (R79, R80). -/
def State.carryRingCancel (p : List Byte) (s : State) : Carried :=
  let l := lineAt p 0
  if (s.line l).call = .termRing then ((s.removeEntry l).endCall l .idle .canceled).okState l
  else s.refuseAs .wrongState l

/-! ### The exchange path -/

/-- CONNECT taken in EXCH_WAIT (R75). -/
def State.connectLine (l : LineNo) (s : State) : State :=
  let s1 := s.updRecord l fun r =>
    if r.kind = .originated ∧ r.answer = none then { r with answer := some s.stamp } else r
  let o := (s.line l).out
  let s2 := if o.digits.isEmpty && !o.overflow && !o.digitError then s1 else s1.markDigits l
  s2.enter l .exchange

/-- CONNECT (R74, R75). -/
def State.carryConnect (p : List Byte) (s : State) : Carried :=
  let l := lineAt p 0
  if (s.line l).call = .exchWait then (s.connectLine l).okState l else s.refuseAs .wrongState l

/-- REJECT (R74). -/
def State.carryReject (p : List Byte) (s : State) : Carried :=
  let l := lineAt p 0
  if (s.line l).call = .exchWait then (s.endCall l .reorder .rejected).okState l else s.refuseAs .wrongState l

/-- DISCONNECT (R76). -/
def State.carryDisconnect (p : List Byte) (s : State) : Carried :=
  let l := lineAt p 0
  if (s.line l).call = .exchange then (s.endCall l (s.line l).releaseTarget .released).okState l
  else s.refuseAs .wrongState l

/-! ### Release -/

/-- LINE_RELEASE carried out (R87): the party test is abandoned, the entry removed, the record ended RELEASED. -/
def State.releaseLine (l : LineNo) (s : State) : State :=
  let s1 := (s.removeEntry l).updLine l fun x => { x with test := PartyTest.idle }
  s1.endCall l (s.line l).releaseTarget .released

/-- The call states in which LINE_RELEASE is refused (R87). -/
def CallState.holdsOut : CallState → Bool
  | .disabled | .test | .calibrating => true
  | .idle | .ident | .dial | .exchWait | .exchange | .termRing | .revertTone | .revertRing | .revertCheck
  | .revertTalk | .alarmRing | .reorder | .lockout => false

/-- LINE_RELEASE (R87, R116). -/
def State.carryLineRelease (p : List Byte) (s : State) : Carried :=
  let l := lineAt p 0
  if (s.line l).call.holdsOut then s.refuseAs .wrongState l else (s.releaseLine l).okState l

/-! ### Alarms -/

/-- One line of ALARM_RING (R83). -/
def alarmRingAt (frames : Nat) (l : LineNo) (s : State) : State × Status :=
  if (s.line l).call = .disabled then (s, .disabled)
  else match (s.line l).alarmVoice with
    | none => (s, .noAlarm)
    | some v =>
      if (s.line l).call = .idle then (s.startAlarm l v frames, .started)
      else (s.updLine l fun x => { x with alarmPending := some frames }, .pending)

/-- ALARM_RING (R83). -/
def State.carryAlarmRing (p : List Byte) (s : State) : Carried := s.forSet p (alarmRingAt (byteAt p 2))

/-- One line of ALARM_STOP (R86). -/
def alarmStopAt (l : LineNo) (s : State) : State × Status :=
  let cleared := s.updLine l fun x => { x with alarmPending := none }
  if (s.line l).call = .alarmRing then (cleared.endAlarm l, .ok)
  else if (s.line l).alarmPending.isSome then (cleared, .ok)
  else (s, .wrongState)

/-- ALARM_STOP (R86). -/
def State.carryAlarmStop (p : List Byte) (s : State) : Carried := s.forSet p alarmStopAt

/-! ### Test access -/

/-- The tracking window of a line discarded (R56). -/
def Line.trackDiscarded (x : Line) : Line := { x with track := Tracking.empty }

/-- TEST_ACCESS (R88). -/
def State.carryTestAccess (p : List Byte) (s : State) : Carried :=
  let l := lineAt p 0
  if (s.line l).call = .idle ∨ (s.line l).call = .lockout then
    ((s.updLine l fun x => { x.trackDiscarded with saved := some x.call }).enter l .test).okState l
  else s.refuseAs .wrongState l

/-- The hook machine that a return from test access to a call state assumes (R51, R89). -/
def CallState.assumedHook : CallState → Hook
  | .lockout => Hook.offhookClear
  | .disabled | .idle | .ident | .dial | .exchWait | .exchange | .termRing | .revertTone | .revertRing
  | .revertCheck | .revertTalk | .alarmRing | .reorder | .test | .calibrating => Hook.onhookClear

/-- TEST_RELEASE (R89). -/
def State.carryTestRelease (p : List Byte) (s : State) : Carried :=
  let l := lineAt p 0
  if (s.line l).call = .test then
    let back := (s.line l).saved.getD .idle
    ((s.updLine l fun x => { x with saved := none, hook := back.assumedHook }).enter l back).okState l
  else s.refuseAs .wrongState l

/-! ### Calibration -/

/-- The run that CALIBRATE opens (R163). That the current channel and the request load stand at 0 in LEAK, before the
first WAIT sets them, is the model's choice: R162 gives them no value there (log 30). -/
def runAt (p : List Byte) : Run where
  method := if byteAt p 1 = 0 then .midpoint else .hold
  mask := BitVec.ofNat 4 (byteAt p 2)
  bounds := if byteAt p 3 = 1 then some (wordAt p 4, wordAt p 6) else none
  hold := if wordAt p 8 = 0 then none else some (wordAt p 8)
  phase := .leak
  leakScans := 0
  leakSum := 0
  leakAvg := none
  channel := 0
  reqLoad := 0
  waitCount := 0
  meas := Tab.fill none

/-- CALIBRATE accepted (R163). -/
def State.openRun (l : LineNo) (r : Run) (s : State) : State :=
  (s.updLine l fun x =>
    { x with run := some r, calStatus := .running, calMethod := some r.method, calCause := none }).enter l .calibrating

/-- CALIBRATE (R163). -/
def State.carryCalibrate (p : List Byte) (s : State) : Carried :=
  let l := lineAt p 0
  if (s.line l).call = .disabled then s.refuse .disabled
  else if (s.line l).call = .idle then (s.openRun l (runAt p)).okState l
  else s.refuseAs .busy l

/-- CALIBRATE_CANCEL (R173). -/
def State.carryCalibrateCancel (p : List Byte) (s : State) : Carried :=
  let l := lineAt p 0
  if (s.line l).call = .calibrating then (s.failToIdle l .canceled).okState l else s.refuseAs .wrongState l

end Sys2Proof.Machine
end

