-- ==== Sys2Proof/Machine/SoftReset.lean ====
section
/-! DEFINITION. The soft reset of every block (R21, R30, R61, R96, R119, R147, R161, R174, R190). -/

namespace Sys2Proof.Machine

/-- The calibration fields of a line at soft reset: a run fails with cause RESET (R174). -/
def Line.runReset (x : Line) : Line :=
  match x.run with
  | none => x
  | some _ => { x with calStatus := .failed, calCause := some .reset, run := none }

/-- One line at soft reset (R21, R61, R96, R119, R161, R174). -/
def Line.softReset (x : Line) : Line :=
  { x.runReset with
    commitPending := false
    hook := Hook.onhookClear
    test := PartyTest.idle
    track := Tracking.empty
    call := if x.fitted && x.enabled then .idle else .disabled
    saved := none
    timer := none
    dialBegun := false
    digits := DigitBuffer.empty
    out := OutList.empty
    alarmCount := 0
    alarmPending := none
    record := none
    completed := none
    manner := none
    play := none }

/-- The arbiter at soft reset (R147). -/
def Arbiter.softReset (a : Arbiter) : Arbiter :=
  { a with
    rows := Tab.fill none
    profile := Tab.fill (Tab.fill 0)
    placedOrder := []
    waitQueue := []
    supply := .standby
    standbyCount := a.standbyFrames
    warmUpCount := 0 }

/-- The link at soft reset (R190). -/
def Link.softReset (k : Link) : Link :=
  { k with pendingSets := Tab.fill 0, faults := 0, lastServed := deviceEntry }

/-- The soft reset of the whole part. A boundary's work held back forgets the lines that stood in the queue. -/
def State.softReset (s : State) : State :=
  { s with
    lines := Tab.build fun l => (s.line l).softReset
    edit := EditBuffer.empty
    arb := s.arb.softReset
    link := s.link.softReset
    boundary := s.boundary.map fun b => { b with stood := [] } }

end Sys2Proof.Machine
end

