-- ==== Sys2Proof/Machine/DeviceCommands.lean ====
section
/-! DEFINITION. What the device, timebase and arbiter commands do when they are carried out (R196 and the rules it
names). Their payloads have passed the length and field checks of R194. -/

namespace Sys2Proof.Machine

/-- The seven call timer settings, the identification threshold and the answer current, in the order of R68 (R196). -/
def Settings.bytes (t : Settings) : List Byte :=
  toBytes2 t.firstDigit ++ toBytes2 t.interdigit ++ toBytes2 t.exchangeWait ++ toBytes2 t.hangupWait
    ++ toBytes2 t.revertNoAnswer ++ toBytes2 t.termNoAnswer ++ toBytes2 t.reorder
    ++ [toByte t.idThreshold] ++ toBytes2 t.answerCurrent

/-- DEVICE_STATUS (R189). -/
def State.carryDeviceStatus (_p : List Byte) (s : State) : Carried :=
  let t := s.timebase
  let a := s.arb
  s.ok
    ([t.role.code, followerCode t.follower, toByte t.position.val, flagByte t.parity] ++ stampBytes t.stamp
      ++ s.settings.bytes
      ++ [toByte a.phaseBase, toByte a.stride, toByte a.waitThreshold, toByte a.unitCurrent, toByte a.assumedLoad,
          toByte a.standbyFrames, toByte a.warmUpFrames, toByte a.reloadMask.toNat, toByte a.wakeMask.toNat]
      ++ toBytes2 s.link.mask.toNat
      ++ [toByte s.link.faults.toNat, toByte s.link.intake.length, toByte s.link.replies.length, rateCode s.link.rate])

/-- SOFT_RESET (R190). -/
def State.carrySoftReset (_p : List Byte) (s : State) : Carried := s.softReset.ok

/-- REPORT_MASK (R188): the new mask, with disabled kinds removed from every pending set. -/
def State.carryReportMask (p : List Byte) (s : State) : Carried :=
  let m := (WriteForm.ofCode (byteAt p 0)).apply s.link.mask (BitVec.ofNat 14 (wordAt p 1))
  (s.updLink fun k =>
    { k with mask := m, pendingSets := Tab.build fun e => k.pendingSets.get e &&& m }).ok (toBytes2 m.toNat)

/-- The settings that TIMERS_SET carries (R55, R68, R171). -/
def settingsAt (p : List Byte) : Settings where
  firstDigit := wordAt p 0
  interdigit := wordAt p 2
  exchangeWait := wordAt p 4
  hangupWait := wordAt p 6
  revertNoAnswer := wordAt p 8
  termNoAnswer := wordAt p 10
  reorder := wordAt p 12
  idThreshold := byteAt p 14
  answerCurrent := wordAt p 15

/-- TIMERS_SET (R68). -/
def State.carryTimersSet (p : List Byte) (s : State) : Carried := { s with settings := settingsAt p }.ok

/-- A change of role, with its SYNC report (R32). -/
def State.changeRole (r : Role) (s : State) : State := (s.updTimebase fun t => t.withRole r).markSync

/-- TIMEBASE_SET (R32): the present role again changes nothing. -/
def State.carryTimebaseSet (p : List Byte) (s : State) : Carried :=
  let r := Role.ofCode (byteAt p 0)
  if s.timebase.role = r then s.ok else (s.changeRole r).ok

/-- The four window capacities that SUPPLY_SET carries. -/
def capacitiesAt (p : List Byte) : Tab 4 Nat := Tab.build fun w => byteAt p (1 + w.val)

/-- SUPPLY_SET (R121). -/
def State.carrySupplySet (p : List Byte) (s : State) : Carried :=
  (s.updArb fun a => { a with caps := a.caps.set (channelAt p 0) (capacitiesAt p) }).ok

/-- SUPPLY_TIMING (R142). -/
def State.carrySupplyTiming (p : List Byte) (s : State) : Carried :=
  (s.updArb fun a =>
    { a with
      standbyFrames := byteAt p 0
      warmUpFrames := byteAt p 1
      reloadMask := (WriteForm.ofCode (byteAt p 2)).apply a.reloadMask (BitVec.ofNat 3 (byteAt p 3))
      wakeMask := (WriteForm.ofCode (byteAt p 4)).apply a.wakeMask (BitVec.ofNat 3 (byteAt p 5)) }).ok

/-- ARBITER_SET (R123). -/
def State.carryArbiterSet (p : List Byte) (s : State) : Carried :=
  (s.updArb fun a =>
    { a with
      phaseBase := byteAt p 0
      stride := byteAt p 1
      waitThreshold := byteAt p 2
      unitCurrent := byteAt p 3
      assumedLoad := byteAt p 4 }).ok

/-- ARBITER_READ with selector ORDER (R145, R196). -/
def State.orderBytes (s : State) : List Byte :=
  let a := s.arb
  [a.supply.code, toByte a.standbyCount, toByte a.warmUpCount, toByte a.faults.toNat, toByte a.placedOrder.length]
    ++ a.placedOrder.map lineByte ++ [toByte a.waitQueue.length] ++ a.waitQueue.map lineByte
    ++ [toByte s.alarmSection.length]

/-- The offset of an entry, 0xFF while it is not PLACED. -/
def EntryState.offsetByte : EntryState → Byte
  | .placed φ => toByte φ
  | .waiting | .suspended => 0xFF

/-- ARBITER_READ with selector ENTRY (R145, R196). -/
def entryBytes : Option Entry → List Byte
  | none => [0, 0, 0] ++ absentVoice ++ [0] ++ absentVoice ++ [0, 0xFF, 0, 0]
  | some e =>
    [1, e.cls.code, e.reqType.code] ++ voiceBytes e.voiceA
      ++ (match e.voiceB with
          | none => 0 :: absentVoice
          | some b => 1 :: voiceBytes b)
      ++ [e.state.code, e.state.offsetByte, toByte e.waited, flagByte e.delayed]

/-- ARBITER_READ with selector PROFILE (R145, R195): 60 values, one above 255 given as 255. -/
def State.profileBytes (s : State) (c : Channel) (half : Nat) : List Byte :=
  (List.range 60).map fun k => toByte (min 255 (profileAt s.arb.profile c (half * 60 + k)))

/-- ARBITER_READ (R145). -/
def State.carryArbiterRead (p : List Byte) (s : State) : Carried :=
  if byteAt p 0 = 0 then s.ok s.orderBytes
  else if byteAt p 0 = 1 then s.ok (entryBytes (s.row (lineAt p 1)))
  else (s, s.profileBytes (channelAt p 1) (byteAt p 2))

end Sys2Proof.Machine
end

