-- ==== Sys2Proof/Machine/PlanCommands.lean ====
section
/-! DEFINITION. What the line plan and numbering commands do when they are carried out (R197 and the rules it names). -/

namespace Sys2Proof.Machine

/-- The checks of every edit of a staged table: LOCKED, then COMMIT_PENDING (R12, R13, R15). -/
def Line.editRefusal (x : Line) : Option Status :=
  if x.lock then some .locked else if x.commitPending then some .commitPending else none

/-- A staged entry as PARTY_WRITE leaves it: an absent entry keeps its other fields (R12). -/
def PartyEntry.written (old new : PartyEntry) : PartyEntry := if new.present then new else { old with present := false }

/-- PARTY_WRITE (R12). -/
def State.carryPartyWrite (p : List Byte) (s : State) : Carried :=
  let l := lineAt p 0
  match (s.line l).editRefusal with
  | some st => s.refuse st
  | none =>
    let i := slotAt p 1
    (s.updLine l fun x =>
      { x with
        staged := { x.staged with
          entries := x.staged.entries.set i ((x.staged.entries.get i).written (partyEntryAt p 2)) } }).ok

/-- The entries and the alarm identity of a table (R14, R197). -/
def PartyTable.bytes (t : PartyTable) : List Byte :=
  t.entries.items.flatMap partyEntryBytes ++ [toByte t.alarmChannel.val, patternByte t.alarmPattern]

/-- PARTY_READ (R14). -/
def State.carryPartyRead (p : List Byte) (s : State) : Carried :=
  let x := s.line (lineAt p 0)
  s.ok (flagByte x.commitPending :: (if byteAt p 1 = 0 then x.staged else x.active).bytes)

/-- ALARM_IDENTITY (R13). -/
def State.carryAlarmIdentity (p : List Byte) (s : State) : Carried :=
  let l := lineAt p 0
  match (s.line l).editRefusal with
  | some st => s.refuse st
  | none =>
    (s.updLine l fun x =>
      { x with staged := { x.staged with alarmChannel := channelAt p 1, alarmPattern := alarmPatternAt p 2 } }).ok

/-- PLAN_COMMIT (R15). -/
def State.carryPlanCommit (p : List Byte) (s : State) : Carried :=
  let l := lineAt p 0
  match (s.line l).editRefusal with
  | some st => s.refuse st
  | none =>
    match (s.line l).staged.ambiguous with
    | some (i, j) => s.refuse .ambiguous [slotByte (some i), slotByte (some j)]
    | none =>
      match s.undefinedReference (s.line l).staged with
      | some k => s.refuse .badCadence [toByte k.val]
      | none => (s.updLine l fun x => { x with commitPending := true }).ok

/-- PLAN_DISCARD (R17). -/
def State.carryPlanDiscard (p : List Byte) (s : State) : Carried :=
  let l := lineAt p 0
  if (s.line l).lock then s.refuse .locked
  else (s.updLine l fun x => { x with staged := x.active, commitPending := false }).ok

/-- The outcome of LINE_OPTIONS for a line and its new option set (R4). -/
def Line.optionsOutcome (x : Line) (new : BitVec 4) : Status :=
  if x.lock && (new &&& frozenFlags) != (x.opts &&& frozenFlags) then .locked
  else if new.getLsbD 1 != x.sideReverse && !(x.call == .idle || x.call == .disabled) then .busy
  else if new.getLsbD 0 && !x.fitted then .notFitted
  else .ok

/-- An option set taken in full, with the consequences of a change of ENABLED (R4, R90, R91). -/
def State.takeOptions (l : LineNo) (new : BitVec 4) (s : State) : State :=
  let s1 := s.updLine l fun x => { x with opts := new }
  if !(s.line l).enabled && new.getLsbD 0 then s1.enableLine l
  else if (s.line l).enabled && !new.getLsbD 0 then s1.disableLine l
  else s1

/-- One line of LINE_OPTIONS (R4). -/
def lineOptionsAt (form : WriteForm) (value : BitVec 4) (l : LineNo) (s : State) : State × Status :=
  let new := form.apply (s.line l).opts value
  let out := (s.line l).optionsOutcome new
  (if out = .ok then s.takeOptions l new else s, out)

/-- LINE_OPTIONS (R4). -/
def State.carryLineOptions (p : List Byte) (s : State) : Carried :=
  s.forSet p (lineOptionsAt (WriteForm.ofCode (byteAt p 2)) (BitVec.ofNat 4 (byteAt p 3)))

/-- LINE_LEVELS (R5). -/
def State.carryLineLevels (p : List Byte) (s : State) : Carried :=
  let l := lineAt p 0
  if (s.line l).call = .calibrating then s.refuseAs .busy l
  else (s.updLine l fun x => { x with margin := wordAt p 1, leakLimit := wordAt p 3, tripThreshold := wordAt p 5 }).ok

/-- The four loads that LINE_LOADS carries. -/
def loadsAt (p : List Byte) : Tab 4 Nat := Tab.build fun c => byteAt p (1 + c.val)

/-- LINE_LOADS (R6). -/
def State.carryLineLoads (p : List Byte) (s : State) : Carried :=
  let l := lineAt p 0
  if (s.line l).call = .calibrating || (s.row l).isSome then s.refuseAs .busy l
  else (s.updLine l fun x => { x with loads := loadsAt p }).ok

/-- One line of LINE_LOCK (R7). -/
def lineLockAt (l : LineNo) (s : State) : State × Status :=
  if (s.line l).commitPending then (s, .commitPending) else (s.updLine l fun x => { x with lock := true }, .ok)

/-- LINE_LOCK (R7). -/
def State.carryLineLock (p : List Byte) (s : State) : Carried := s.forSet p lineLockAt

/-- The 16 boundaries that NUMBERING_SET carries. -/
def boundariesAt (p : List Byte) : Tab 16 Nat := Tab.build fun l => wordAt p (2 * l.val)

/-- The boundary below a line's in a numbering, 0 for line 0 (R18). -/
def lowerOf (t : Tab 16 Nat) (l : LineNo) : Nat := if l.val = 0 then 0 else t.get (Fin.ofNat 16 (l.val - 1))

/-- The boundaries are in range and non-decreasing (R19, check 1). -/
def ordered (t : Tab 16 Nat) : Bool := lineNos.all fun l => decide (t.get l ≤ 1000) && decide (lowerOf t l ≤ t.get l)

/-- A locked line's range would change (R19, check 2). -/
def State.movesLocked (s : State) (t : Tab 16 Nat) : Bool :=
  lineNos.any fun l =>
    (s.line l).lock && (lowerOf t l != lowerOf s.numbering l || t.get l != s.numbering.get l)

/-- NUMBERING_SET (R19). -/
def State.carryNumberingSet (p : List Byte) (s : State) : Carried :=
  let t := boundariesAt p
  if !ordered t then s.refuse .order
  else if s.movesLocked t then s.refuse .locked
  else { s with numbering := t }.ok

/-- NUMBERING_READ (R19). -/
def State.carryNumberingRead (_p : List Byte) (s : State) : Carried := s.ok (s.numbering.items.flatMap toBytes2)

/-- The option set as it reads: ENABLED clear while the line is not fitted (R2, R9). -/
def Line.optionsRead (x : Line) : BitVec 4 := if x.fitted then x.opts else withoutEnabled x.opts

/-- A calibration method that may be absent (R192). -/
def methodByte : Option CalMethod → Byte
  | none => 0xFF
  | some m => m.code

/-- LINE_STATUS (R9). -/
def State.carryLineStatus (p : List Byte) (s : State) : Carried :=
  let x := s.line (lineAt p 0)
  s.ok
    ([flagByte x.fitted, toByte x.optionsRead.toNat] ++ toBytes2 x.margin ++ toBytes2 x.leakLimit
      ++ toBytes2 x.tripThreshold ++ x.loads.items.map toByte ++ toBytes2 x.baseline
      ++ [flagByte x.leaky, flagByte x.lock, flagByte x.commitPending, x.calStatus.code, calCauseCode x.calCause,
          methodByte x.calMethod, x.call.code, x.hook.state.code])

/-- A record that may be absent: its presence, then 28 bytes. -/
def recordField (r : Option Record) (ds : DigitBuffer) : List Byte :=
  match r with
  | none => 0 :: absentRecord
  | some x => 1 :: recordBytes x ds

/-- CALL_RECORD_READ (R94): the completed record, then the current one with the digits held so far. -/
def State.carryCallRecordRead (p : List Byte) (s : State) : Carried :=
  let x := s.line (lineAt p 0)
  s.ok
    (recordField x.completed ((x.completed.map fun r => r.digits).getD DigitBuffer.empty)
      ++ recordField x.record x.digits)

end Sys2Proof.Machine
end

