-- ==== Sys2Proof/Machine/Link.lean ====
section
/-! DEFINITION. The host link: link faults (R177), the intake queue (R178), the dispatcher and the judging of a command
(R179, R180, R194), the transmitter's choice (R183, R185, R187), the receive assembler (R176), and what every event ends
with. -/

namespace Sys2Proof.Machine

/-! ### Link faults -/

/-- A link fault: its cause joins the link-fault set, and LINK is marked (R177). -/
def State.linkFault (c : LinkFault) (s : State) : State :=
  let s1 := s.updLink fun k => { k with faults := k.faults ||| c.bit }
  s1.markDevice .link ([toByte c.bit.toNat, toByte s1.link.faults.toNat] ++ stampBytes s1.stamp)

/-! ### Intake -/

/-- A good frame offered to the intake queue (R178). -/
def State.offer (f : Frame) (s : State) : State :=
  if s.link.intake.length < Config.intakeLimit then s.updLink fun k => { k with intake := k.intake ++ [f] }
  else s.linkFault .intakeFull

/-! ### Carrying out -/

/-- A command carried out by the block that owns the state it names (R180, check 4). -/
def State.carry (c : HostCmd) (p : List Byte) (s : State) : Carried :=
  match c with
  | .deviceStatus => s.carryDeviceStatus p
  | .softReset => s.carrySoftReset p
  | .reportMask => s.carryReportMask p
  | .timersSet => s.carryTimersSet p
  | .timebaseSet => s.carryTimebaseSet p
  | .supplySet => s.carrySupplySet p
  | .supplyTiming => s.carrySupplyTiming p
  | .arbiterSet => s.carryArbiterSet p
  | .arbiterRead => s.carryArbiterRead p
  | .partyWrite => s.carryPartyWrite p
  | .partyRead => s.carryPartyRead p
  | .alarmIdentity => s.carryAlarmIdentity p
  | .planCommit => s.carryPlanCommit p
  | .planDiscard => s.carryPlanDiscard p
  | .lineOptions => s.carryLineOptions p
  | .lineLevels => s.carryLineLevels p
  | .lineLoads => s.carryLineLoads p
  | .lineLock => s.carryLineLock p
  | .numberingSet => s.carryNumberingSet p
  | .numberingRead => s.carryNumberingRead p
  | .lineStatus => s.carryLineStatus p
  | .callRecordRead => s.carryCallRecordRead p
  | .cadenceOpen => s.carryCadenceOpen p
  | .cadencePut => s.carryCadencePut p
  | .cadenceStore => s.carryCadenceStore p
  | .cadenceRead => s.carryCadenceRead p
  | .cadenceClear => s.carryCadenceClear p
  | .dialplanWrite => s.carryDialplanWrite p
  | .dialplanRead => s.carryDialplanRead p
  | .ringParty => s.carryRingParty p
  | .ringCancel => s.carryRingCancel p
  | .connect => s.carryConnect p
  | .reject => s.carryReject p
  | .disconnect => s.carryDisconnect p
  | .lineRelease => s.carryLineRelease p
  | .alarmRing => s.carryAlarmRing p
  | .alarmStop => s.carryAlarmStop p
  | .testAccess => s.carryTestAccess p
  | .testRelease => s.carryTestRelease p
  | .calibrate => s.carryCalibrate p
  | .calibrateCancel => s.carryCalibrateCancel p

/-- The detail of a BAD_FIELD refusal: the offset of the failing field; none for a read of the profile, selector 2 of
ARBITER_READ, whose refusal is the one status byte (R195; log 15). -/
def fieldDetail (c : HostCmd) (p : List Byte) (offset : Nat) : List Byte :=
  if c = .arbiterRead ∧ byteAt p 0 = 2 then [] else [toByte offset]

/-- A command of a known kind judged by length, then by fields, and carried out (R180, R194). -/
def State.judge (c : HostCmd) (p : List Byte) (s : State) : Carried :=
  if lengthFits c p.length then
    match firstFailing (fieldChecks c p) with
    | some offset => s.refuse .badField (fieldDetail c p offset)
    | none => s.carry c p
  else s.refuse .badLength

/-- The kind of a reply: the command's kind plus 0x80 (R180). -/
def replyKind (kind : Byte) : Byte := kind + 0x80

/-- The reply to a frame whose kind is no command kind (R180, check 1). -/
def badKindReply (f : Frame) : Frame := ⟨0xFF, f.tag, [Status.badKind.code, f.kind]⟩

/-- A frame taken by the dispatcher: the state after it, and its reply (R180). -/
def State.answerFrame (f : Frame) (s : State) : State × Frame :=
  match HostCmd.ofCode f.kind with
  | none => (s, badKindReply f)
  | some c =>
    let r := s.judge c f.payload
    (r.1, ⟨replyKind f.kind, f.tag, r.2⟩)

/-- A reply joins the tail of the reply queue (R179). -/
def State.pushReply (r : Frame) (s : State) : State := s.updLink fun k => { k with replies := k.replies ++ [r] }

/-- The dispatcher takes frames from the head of the intake queue while the reply queue has room (R179); `fuel` bounds
their number. -/
def State.dispatch : Nat → State → State
  | 0, s => s
  | fuel + 1, s =>
    match s.link.intake with
    | [] => s
    | f :: fs =>
      if s.link.replies.length < Config.replyLimit then
        let taken := s.updLink fun k => { k with intake := fs }
        let r := taken.answerFrame f
        (r.1.pushReply r.2).dispatch fuel
      else s

/-- The dispatcher's part at the end of an event: at most 4 frames are held (R178). -/
def State.dispatchAll (s : State) : State := s.dispatch Config.intakeLimit

/-! ### The transmitter -/

/-- The lowest kind of a pending set (R185). -/
def lowestKind (m : BitVec 14) : Option ReportKind := ReportKind.all.find? fun k => kindIn k m

/-- The 17 entries in the order of the search, beginning after the last served one (R185). -/
def searchOrder (last : Fin 17) : List (Fin 17) := (List.range 17).map fun k => Fin.ofNat 17 (last.val + 1 + k)

/-- The next report: the entry and its lowest kind (R185). -/
def Link.nextReport (k : Link) : Option (Fin 17 × ReportKind) :=
  match (searchOrder k.lastServed).find? fun e => (lowestKind (k.pendingSets.get e)).isSome with
  | none => none
  | some e => (lowestKind (k.pendingSets.get e)).map fun r => (e, r)

/-- What the choice of a kind does besides (R187): DIGITS empties the line's list, LINK the link-fault set. -/
def State.chosen (e : Fin 17) (r : ReportKind) (s : State) : State :=
  match r with
  | .digits => if h : e.val < 16 then s.updLine ⟨e.val, h⟩ fun x => { x with out := OutList.empty } else s
  | .link => s.updLink fun k => { k with faults := 0 }
  | .state | .origination | .exchangeRequest | .answer | .callEnd | .ring | .calibration | .lineFault | .plan
  | .flash | .sync | .supply => s

/-- A report frame: the kind, tag 0, and the data of the slot (R185). -/
def Link.reportFrame (k : Link) (e : Fin 17) (r : ReportKind) : Frame :=
  ⟨r.code, 0, ((k.slots.get e).get r.idx).getD []⟩

/-- A report chosen for sending (R185 to R187). -/
def State.sendReport (e : Fin 17) (r : ReportKind) (s : State) : State :=
  (s.updLink fun k =>
    { k with
      tx := some (k.reportFrame e r)
      lastServed := e
      pendingSets := k.pendingSets.set e (k.pendingSets.get e &&& ~~~r.bit) }).chosen e r

/-- The choice of an IDLE transmitter (R183). -/
def State.choose (s : State) : State :=
  match s.link.replies with
  | r :: rs => s.updLink fun k => { k with tx := some r, replies := rs }
  | [] =>
    match s.link.nextReport with
    | none => s
    | some (e, k) => s.sendReport e k

/-- The transmitter's part at the end of an event (R183). -/
def State.transmit (s : State) : State :=
  match s.link.tx with
  | some _ => s
  | none => s.choose

/-- What every event ends with: the dispatcher, the transmitter's choice, and the dispatcher again for the place that
the choice freed (R179, R183; log 9). -/
def State.settleLink (s : State) : State := s.dispatchAll.transmit.dispatchAll

/-! ### The receive assembler -/

/-- A byte taken by the receive assembler (R176), as its state directs: the assembler after it, and the good frame it
completes or the fault it finds. -/
inductive Received where
  | nothing
  | good (f : Frame)
  | fault (c : LinkFault)
deriving DecidableEq, Repr

/-- The frame of the bytes held: the kind, the tag, and the rest (R176). -/
def frameOf (held : List Byte) : Frame := ⟨held.getD 0 0, held.getD 1 0, held.drop 2⟩

/-- A byte arriving (R176). -/
def Receiver.take (r : Receiver) (b : Byte) : Receiver × Received :=
  match r with
  | .hunt => if b = 0xC3 then (.length, .nothing) else (.hunt, .nothing)
  | .length => if 2 ≤ b.toNat ∧ b.toNat ≤ 62 then (.body b.toNat [] b.toNat, .nothing) else (.hunt, .fault .badLength)
  | .body len held sum =>
    if len ≤ held.length + 1 then (.check (held ++ [b]) (sum + b.toNat), .nothing)
    else (.body len (held ++ [b]) (sum + b.toNat), .nothing)
  | .check held sum =>
    if (sum + b.toNat) % 256 = 0 then (.hunt, .good (frameOf held)) else (.hunt, .fault .badCheck)

/-- What the assembler's byte leads to in the link (R176 to R178). -/
def State.takeReceived (s : State) : Received → State
  | .nothing => s
  | .good f => s.offer f
  | .fault c => s.linkFault c

/-- A character with a good stop bit taken by the assembler (R176). -/
def State.receive (b : Byte) (s : State) : State :=
  let r := s.link.receiver.take b
  (s.updLink fun k => { k with receiver := r.1 }).takeReceived r.2

/-- The gap timer runs: the assembler is outside HUNT (R176). -/
def Receiver.timed : Receiver → Bool
  | .hunt => false
  | .length | .body _ _ _ | .check _ _ => true

/-- The expiry of the gap timer inside a frame (R176, R177). -/
def State.gapExpiry (s : State) : State :=
  if s.link.receiver.timed then (s.updLink fun k => { k with receiver := .hunt }).linkFault .gap else s

/-- The transmitter finishes its frame (R183). -/
def State.frameDone (s : State) : State := s.updLink fun k => { k with tx := none }

/-! ### Events -/

/-- An event: its effect, then what every event ends with. -/
def finish (s : State) : Outcome := .next s.settleLink

/-- The arrival of a whole good frame (R178). The receive assembler is left as it stands, in HUNT or in the middle of another
frame: that a frame may arrive so beside it is the model's choice (log 8). -/
def arrival (f : Frame) (s : State) : Outcome := finish (s.offer f)

/-- A command of the host arriving as a good frame of its kind (R178 to R180; log 8). -/
def hostCommand (c : HostCmd) (tag : Byte) (p : List Byte) (s : State) : Outcome := arrival ⟨c.code, tag, p⟩ s

end Sys2Proof.Machine
end

