-- ==== Sys2Proof/Machine/ExecCadence.lean ====
section
/-! DEFINITION. The meanings of the cadence and dial plan commands (R198): each is the arrival of a good frame of its
kind, which the link takes, judges, carries out and answers (R178 to R183; log 8). What each does when it is carried
out is its `State.carry…` definition. -/

namespace Sys2Proof.Machine

/-- CADENCE_OPEN (R24). -/
def execCadenceOpen (tag : Byte) (p : List Byte) (s : State) : Outcome := hostCommand .cadenceOpen tag p s

/-- CADENCE_PUT (R25). -/
def execCadencePut (tag : Byte) (p : List Byte) (s : State) : Outcome := hostCommand .cadencePut tag p s

/-- CADENCE_STORE (R26). -/
def execCadenceStore (tag : Byte) (p : List Byte) (s : State) : Outcome := hostCommand .cadenceStore tag p s

/-- CADENCE_READ (R29). -/
def execCadenceRead (tag : Byte) (p : List Byte) (s : State) : Outcome := hostCommand .cadenceRead tag p s

/-- CADENCE_CLEAR (R28). -/
def execCadenceClear (tag : Byte) (p : List Byte) (s : State) : Outcome := hostCommand .cadenceClear tag p s

/-- DIALPLAN_WRITE (R98). -/
def execDialplanWrite (tag : Byte) (p : List Byte) (s : State) : Outcome := hostCommand .dialplanWrite tag p s

/-- DIALPLAN_READ (R99). -/
def execDialplanRead (tag : Byte) (p : List Byte) (s : State) : Outcome := hostCommand .dialplanRead tag p s

end Sys2Proof.Machine
end

