-- ==== Sys2Proof/Machine/ExecCalls.lean ====
section
/-! DEFINITION. The meanings of the call, alarm, test and calibration commands (R198): each is the arrival of a good frame of its
kind, which the link takes, judges, carries out and answers (R178 to R183; log 8). What each does when it is carried
out is its `State.carry…` definition. -/

namespace Sys2Proof.Machine

/-- RING_PARTY (R77). -/
def execRingParty (tag : Byte) (p : List Byte) (s : State) : Outcome := hostCommand .ringParty tag p s

/-- RING_CANCEL (R80). -/
def execRingCancel (tag : Byte) (p : List Byte) (s : State) : Outcome := hostCommand .ringCancel tag p s

/-- CONNECT (R75). -/
def execConnect (tag : Byte) (p : List Byte) (s : State) : Outcome := hostCommand .connect tag p s

/-- REJECT (R74). -/
def execReject (tag : Byte) (p : List Byte) (s : State) : Outcome := hostCommand .reject tag p s

/-- DISCONNECT (R76). -/
def execDisconnect (tag : Byte) (p : List Byte) (s : State) : Outcome := hostCommand .disconnect tag p s

/-- LINE_RELEASE (R87). -/
def execLineRelease (tag : Byte) (p : List Byte) (s : State) : Outcome := hostCommand .lineRelease tag p s

/-- ALARM_RING (R83). -/
def execAlarmRing (tag : Byte) (p : List Byte) (s : State) : Outcome := hostCommand .alarmRing tag p s

/-- ALARM_STOP (R86). -/
def execAlarmStop (tag : Byte) (p : List Byte) (s : State) : Outcome := hostCommand .alarmStop tag p s

/-- TEST_ACCESS (R88). -/
def execTestAccess (tag : Byte) (p : List Byte) (s : State) : Outcome := hostCommand .testAccess tag p s

/-- TEST_RELEASE (R89). -/
def execTestRelease (tag : Byte) (p : List Byte) (s : State) : Outcome := hostCommand .testRelease tag p s

/-- CALIBRATE (R163). -/
def execCalibrate (tag : Byte) (p : List Byte) (s : State) : Outcome := hostCommand .calibrate tag p s

/-- CALIBRATE_CANCEL (R173). -/
def execCalibrateCancel (tag : Byte) (p : List Byte) (s : State) : Outcome := hostCommand .calibrateCancel tag p s

end Sys2Proof.Machine
end

