-- ==== Sys2Proof/Machine/ExecDevice.lean ====
section
/-! DEFINITION. The meanings of the device, timebase and arbiter commands (R196): each is the arrival of a good frame of its
kind, which the link takes, judges, carries out and answers (R178 to R183; log 8). What each does when it is carried
out is its `State.carry…` definition. -/

namespace Sys2Proof.Machine

/-- DEVICE_STATUS (R189). -/
def execDeviceStatus (tag : Byte) (p : List Byte) (s : State) : Outcome := hostCommand .deviceStatus tag p s

/-- SOFT_RESET (R190). -/
def execSoftReset (tag : Byte) (p : List Byte) (s : State) : Outcome := hostCommand .softReset tag p s

/-- REPORT_MASK (R188). -/
def execReportMask (tag : Byte) (p : List Byte) (s : State) : Outcome := hostCommand .reportMask tag p s

/-- TIMERS_SET (R68). -/
def execTimersSet (tag : Byte) (p : List Byte) (s : State) : Outcome := hostCommand .timersSet tag p s

/-- TIMEBASE_SET (R32). -/
def execTimebaseSet (tag : Byte) (p : List Byte) (s : State) : Outcome := hostCommand .timebaseSet tag p s

/-- SUPPLY_SET (R121). -/
def execSupplySet (tag : Byte) (p : List Byte) (s : State) : Outcome := hostCommand .supplySet tag p s

/-- SUPPLY_TIMING (R142). -/
def execSupplyTiming (tag : Byte) (p : List Byte) (s : State) : Outcome := hostCommand .supplyTiming tag p s

/-- ARBITER_SET (R123). -/
def execArbiterSet (tag : Byte) (p : List Byte) (s : State) : Outcome := hostCommand .arbiterSet tag p s

/-- ARBITER_READ (R145). -/
def execArbiterRead (tag : Byte) (p : List Byte) (s : State) : Outcome := hostCommand .arbiterRead tag p s

end Sys2Proof.Machine
end

