-- ==== Sys2Proof/Machine/ExecLink.lean ====
section
/-! DEFINITION. The meanings of what happens at the host link itself: a frame of an unknown kind, a byte, the gap timer,
a frame sent (R176 to R183). -/

namespace Sys2Proof.Machine

/-- An event that occurs only under a condition: where it does not occur, nothing changes (log 4). -/
def occurring (occurs : Bool) (effect : State → State) (s : State) : Outcome :=
  if occurs then finish (effect s) else .next s

/-- BAD_KIND (R180): a good frame whose kind is no command kind. A frame of a command kind is not this event. -/
def execBadKind (kind tag : Byte) (p : List Byte) (s : State) : Outcome :=
  occurring (HostCmd.ofCode kind).isNone (fun t => t.offer ⟨kind, tag, p⟩) s

/-- BYTE_RECEIVED (R176): a character with a bad stop bit is discarded. -/
def execByteReceived (b : Byte) (stopGood : Bool) (s : State) : Outcome :=
  occurring stopGood (fun t => t.receive b) s

/-- GAP (R176): the expiry of the gap timer, which runs outside HUNT. -/
def execGap (s : State) : Outcome := occurring s.link.receiver.timed State.gapExpiry s

/-- FRAME_SENT (R183): the transmitter finishes its frame and chooses the next. -/
def execFrameSent (s : State) : Outcome := occurring s.link.tx.isSome State.frameDone s

end Sys2Proof.Machine
end

