-- ==== Sys2Proof/Machine/ExecPlan.lean ====
section
/-! DEFINITION. The meanings of the line plan and numbering commands (R197): each is the arrival of a good frame of its
kind, which the link takes, judges, carries out and answers (R178 to R183; log 8). What each does when it is carried
out is its `State.carry…` definition. -/

namespace Sys2Proof.Machine

/-- PARTY_WRITE (R12). -/
def execPartyWrite (tag : Byte) (p : List Byte) (s : State) : Outcome := hostCommand .partyWrite tag p s

/-- PARTY_READ (R14). -/
def execPartyRead (tag : Byte) (p : List Byte) (s : State) : Outcome := hostCommand .partyRead tag p s

/-- ALARM_IDENTITY (R13). -/
def execAlarmIdentity (tag : Byte) (p : List Byte) (s : State) : Outcome := hostCommand .alarmIdentity tag p s

/-- PLAN_COMMIT (R15). -/
def execPlanCommit (tag : Byte) (p : List Byte) (s : State) : Outcome := hostCommand .planCommit tag p s

/-- PLAN_DISCARD (R17). -/
def execPlanDiscard (tag : Byte) (p : List Byte) (s : State) : Outcome := hostCommand .planDiscard tag p s

/-- LINE_OPTIONS (R4). -/
def execLineOptions (tag : Byte) (p : List Byte) (s : State) : Outcome := hostCommand .lineOptions tag p s

/-- LINE_LEVELS (R5). -/
def execLineLevels (tag : Byte) (p : List Byte) (s : State) : Outcome := hostCommand .lineLevels tag p s

/-- LINE_LOADS (R6). -/
def execLineLoads (tag : Byte) (p : List Byte) (s : State) : Outcome := hostCommand .lineLoads tag p s

/-- LINE_LOCK (R7). -/
def execLineLock (tag : Byte) (p : List Byte) (s : State) : Outcome := hostCommand .lineLock tag p s

/-- NUMBERING_SET (R19). -/
def execNumberingSet (tag : Byte) (p : List Byte) (s : State) : Outcome := hostCommand .numberingSet tag p s

/-- NUMBERING_READ (R19). -/
def execNumberingRead (tag : Byte) (p : List Byte) (s : State) : Outcome := hostCommand .numberingRead tag p s

/-- LINE_STATUS (R9). -/
def execLineStatus (tag : Byte) (p : List Byte) (s : State) : Outcome := hostCommand .lineStatus tag p s

/-- CALL_RECORD_READ (R94). -/
def execCallRecordRead (tag : Byte) (p : List Byte) (s : State) : Outcome := hostCommand .callRecordRead tag p s

end Sys2Proof.Machine
end

