-- ==== Sys2Proof/Machine/ExecReset.lean ====
section
/-! DEFINITION. The meaning of a hard reset (R20, R30, R40, R60, R95, R119, R146, R160, R174, R191). -/

namespace Sys2Proof.Machine

/-- The part right after hard reset with the rate that the straps show (R191); the sender's queue is outside it. -/
def State.hardReset (straps : Rate) (s : State) : State :=
  { State.reset with link := Link.reset straps, pending := s.pending }

/-- HARD_RESET. -/
def execHardReset (straps : Rate) (s : State) : Outcome := .next (s.hardReset straps)

end Sys2Proof.Machine
end

