-- ==== Sys2Proof/Machine/RingEngine.lean ====
section
/-! DEFINITION. The ring engine at a step event: opening a play record (R148), armed (R151), the checks in order
(R149), bursts (R150), and the burst-end notice (R159). Its scans stand in Machine/Supervisor.lean. -/

namespace Sys2Proof.Machine

/-- A play record as it opens for an entry (R148). -/
def Play.opened (e : Entry) : Play := ⟨none, 0, 0, 0, e.reqType != .test, 0, 0, 0⟩

/-- The play record with its burst ended: no drive, counts and sums at 0 (R150). -/
def Play.quiet (p : Play) : Play := ⟨none, 0, 0, 0, p.armed, 0, 0, 0⟩

/-- A burst begins with a drive (R150). -/
def Play.begin (p : Play) (d : RingDrive) : Play := ⟨some d, 1, 0, 0, p.armed, 0, 0, 0⟩

/-- The burst continues: the burst step rises by 1, held at 255 (R148, R150). -/
def Play.continue (p : Play) : Play := { p with burstStep := min 255 (p.burstStep + 1) }

/-- The phase RINGING with a drive (R150). -/
def Play.rung (p : Play) (d : RingDrive) : Play := if p.drive = some d then p.continue else p.begin d

/-- The burst-end averages: a sum divided by the measured scans, 0 when there are none (R159). -/
def average (sum n : Nat) : Nat := sum / n

/-- What the entry of a line shows at the step that begins: the voice in use, whether it is ON, and whether it was ON
at the position before (R149, R151). -/
structure Showing where
  voice : Voice
  on : Bool
  onBefore : Bool
deriving DecidableEq, Repr

/-- What an entry with offset `φ` shows at a cycle step. -/
def State.showing (s : State) (e : Entry) (φ cs : Nat) : Showing :=
  let p := positionAt φ cs
  let v := e.voiceInUse p
  ⟨v, s.patternOn v.pattern (p % 60), s.patternOn v.pattern ((p + 59) % 60)⟩

/-- Armed after its judgement at a step event (R151). -/
def Play.armedAt (p : Play) (w : Showing) : Bool := p.armed || !w.on || !w.onBefore

/-- Checks 2 to 5 of R149 let ringing be applied to a line whose entry is ON. -/
def State.mayRing (s : State) (x : Line) (armed : Bool) (w : Showing) : Bool :=
  armed && !x.hook.holdsOffhook && !s.arb.faulted w.voice.channel && !x.test.running

/-- The drive of a voice on a line, after side reversal (R65, R149). -/
def Line.ringDrive (x : Line) (v : Voice) : RingDrive := ⟨x.drivenSide v.side, v.channel⟩

/-- A burst ended by check 1 of R149 is handed to the calibrator when the entry is a TEST entry (R159). -/
def State.endBurst (l : LineNo) (e : Entry) (p : Play) (s : State) : State :=
  if e.reqType = .test ∧ p.drive.isSome then
    s.burstEnd l p.measured (average p.acSum p.measured) (average p.dcSum p.measured)
  else s

/-- The step of a placed line with its play record (R149 to R151). -/
def State.playStep (l : LineNo) (e : Entry) (φ : Nat) (p0 : Play) (s : State) : State :=
  let x := s.line l
  let w := s.showing e φ s.timebase.cycleStep
  let p : Play := { p0 with armed := p0.armedAt w }
  if !w.on then (s.updLine l fun y => { y with play := some p.quiet }).endBurst l e p
  else if s.mayRing x p.armed w then s.updLine l fun y => { y with play := some (p.rung (x.ringDrive w.voice)) }
  else s.updLine l fun y => { y with play := some p.quiet }

/-- The ring engine's work for a line at a step event: a record is opened for an entry first found PLACED (R148,
R149). -/
def State.ringStep (l : LineNo) (s : State) : State :=
  match s.row l with
  | none => s
  | some e =>
    match e.state with
    | .placed φ => s.playStep l e φ ((s.line l).play.getD (Play.opened e))
    | .waiting | .suspended => s

end Sys2Proof.Machine
end

