-- ==== Sys2Proof/Machine/StepWork.lean ====
section
/-! DEFINITION. A step event as a whole: the timebase moves, and the works that it hands to the blocks are taken, in an
order that the spec leaves open and the command gives (R31; log 6, 7). -/

namespace Sys2Proof.Machine

/-- A line is in the WAIT phase of a calibration run. -/
def Line.inWait (x : Line) : Bool :=
  match x.run with
  | none => false
  | some r => r.phase == .wait

/-- The works of a frame boundary, from the state that the step event finds (R31). -/
def State.boundaryWorks (s : State) : List Work :=
  ((lineNos.filter fun l => (s.line l).commitPending).map Work.activation)
    ++ ((lineNos.filter fun l => (s.line l).call == .alarmRing).map Work.alarmCount)
    ++ ((lineNos.filter fun l => (s.line l).inWait).map Work.calWait)
    ++ [.arbiter]

/-- The works of every step event, from the state that it finds (R31, R67, R84, R149). -/
def State.stepWorks (s : State) : List Work :=
  ((lineNos.filter fun l => (s.line l).timer.isSome).map Work.callTimer)
    ++ ((lineNos.filter fun l => (s.line l).call == .idle && (s.line l).alarmPending.isSome).map Work.pendingAlarm)
    ++ (lineNos.map Work.ring)

/-- The works of a step event in the model's own order. -/
def State.works (s : State) (boundary : Bool) : List Work :=
  (if boundary then s.boundaryWorks else []) ++ s.stepWorks

/-- One work. Each looks at the state that the works before it left. -/
def State.doWork (s : State) : Work → State
  | .activation l => s.activation l
  | .alarmCount l => s.alarmCountStep l
  | .calWait l => s.calWaitCount l
  | .arbiter => { s with boundary := some Boundary.fresh }.runBoundary
  | .callTimer l => s.callTimerStep l
  | .pendingAlarm l => s.pendingAlarmStep l
  | .ring l => s.ringStep l

/-- A work that the sender may hold back: all but the ring engine's. -/
def holdable : Work → Bool
  | .ring _ => false
  | .activation _ | .alarmCount _ | .calWait _ | .arbiter | .callTimer _ | .pendingAlarm _ => true

/-- A work held back: it waits in `due`, the arbiter's in `boundary`. -/
def State.hold (s : State) : Work → State
  | .arbiter => { s with boundary := some Boundary.fresh }
  | .activation l => { s with due := s.due ++ [.activation l] }
  | .alarmCount l => { s with due := s.due ++ [.alarmCount l] }
  | .calWait l => { s with due := s.due ++ [.calWait l] }
  | .callTimer l => { s with due := s.due ++ [.callTimer l] }
  | .pendingAlarm l => { s with due := s.due ++ [.pendingAlarm l] }
  | .ring _ => s

/-- The works in the order in which they are done: those that the sender names, each once and at its first place, and then
the others in the model's order. -/
def orderWorks : List Work → List Work → List Work
  | [], works => works
  | w :: first, works =>
    if works.contains w then w :: orderWorks first (works.erase w) else orderWorks first works

/-- The works of the step event before that are still held back are done. -/
def State.settleDue (s : State) : State :=
  (s.due.foldl (fun (t : State) w => t.doWork w) { s with due := [] }).runBoundary

/-- The works of a step event that has moved the timebase: those held are put by, the others done in order. -/
def State.takeWorks (first held : List Work) (boundary : Bool) (s : State) : State :=
  let works := s.works boundary
  let kept := works.filter fun w => held.contains w && holdable w
  let now := orderWorks first (works.filter fun w => !kept.contains w)
  now.foldl (fun (t : State) w => t.doWork w) (kept.foldl (fun (t : State) w => t.hold w) s)

/-- A step event (R31). -/
def State.stepTime (first held : List Work) (s : State) : State :=
  let s1 := s.settleDue
  s1.advanceTimebase.takeWorks first held s1.atBoundary

/-- A held work is taken by its own command. -/
def State.takeDue (w : Work) (s : State) : State := { s with due := s.due.erase w }.doWork w

/-- The work is held back. -/
def State.isDue (s : State) (w : Work) : Bool := s.due.contains w

end Sys2Proof.Machine
end

