-- ==== Sys2Proof/Machine/Supervisor.lean ====
section
/-! DEFINITION. A scan of a line: the hook machine (R42 to R48), the party test (R52, R53), the ring engine's judgement
of a scan under ringing (R154, R155, R158), leakage tracking (R56, R57), and the order of the scan's work (R2, R41,
R59, R164). -/

namespace Sys2Proof.Machine

/-! ### The hook machine -/

/-- The off-hook test: `i - b ≥ m` (R42). -/
def Line.makeScan (x : Line) (i : Nat) : Bool := decide (x.baseline + x.margin ≤ i)

/-- The result of a digit completion with `k` pulses (R48). -/
def digitOf (k : Nat) : HookItem :=
  if k ≤ 9 then .digit (Fin.ofNat 10 k) else if k = 10 then .digit 0 else .digitError

/-- The machine in OFFHOOK with the make count `m` just reached: at 30 a digit in progress completes (R45, R47, R48). -/
def Hook.closed (m pulse : Nat) : Hook × List HookItem :=
  if m = 30 ∧ 1 ≤ pulse then (⟨.offhook, 0, 0, 30, 0⟩, [digitOf pulse]) else (⟨.offhook, 0, 0, m, pulse⟩, [])

/-- A make scan that ends a break of `n` scans (R47). -/
def Hook.endBreak (h : Hook) (n : Nat) : Hook × List HookItem :=
  if n ≤ 2 then
    if h.make < 30 then Hook.closed (min 30 (h.make + n + 1)) h.pulse else (⟨.offhook, 0, 0, 30, h.pulse⟩, [])
  else if n ≤ 10 then (⟨.offhook, 0, 0, 1, min 11 (h.pulse + 1)⟩, [.pulse])
  else if 1 ≤ h.pulse then (⟨.offhook, 0, 0, 1, 0⟩, [digitOf h.pulse, .flash])
  else (⟨.offhook, 0, 0, 1, 0⟩, [.flash])

/-- A scan judged by the hook machine (R44 to R47): the machine after it and the items handed on, in order. -/
def Hook.scan (h : Hook) (make : Bool) (required : Nat) : Hook × List HookItem :=
  match h.state, make with
  | .onhook, false => (h, [])
  | .onhook, true => ({ h with state := .qualify, qualify := 1 }, [])
  | .qualify, false => ({ h with state := .onhook, qualify := 0 }, [])
  | .qualify, true =>
    if h.qualify + 1 < required then ({ h with qualify := h.qualify + 1 }, [])
    else (⟨.offhook, 0, h.brk, 0, 0⟩, [.offHook])
  | .offhook, true =>
    if h.make < 30 then Hook.closed (h.make + 1) h.pulse else (h, [])
  | .offhook, false => ({ h with state := .brk, brk := 1 }, [])
  | .brk, false =>
    if 89 ≤ h.brk then (⟨.onhook, 0, 0, 0, 0⟩, [.onHook]) else ({ h with brk := h.brk + 1 }, [])
  | .brk, true => h.endBreak h.brk

/-- The hook machine's move at a scan of a line that finds it not suspended (R44). -/
def Line.hookMove (x : Line) (r : Reading) : Hook × List HookItem := x.hook.scan (x.makeScan r.loop) x.required

/-- The hook machine's scan: its move, then the items handed to the call controller in order (R41, R49). -/
def State.hookScan (l : LineNo) (r : Reading) (s : State) : State :=
  let move := (s.line l).hookMove r
  move.2.foldl (fun t i => t.handItem l i) (s.updLine l fun x => { x with hook := move.1 })

/-! ### The party test -/

/-- The raw result of a completed party test (R53). -/
def rawResult (t r h : Nat) : TestResult :=
  if h ≤ t then (if h ≤ r then .both else .tip) else (if h ≤ r then .ring else .neither)

/-- The result handed on at the third scan of a party test with these sums (R53). -/
def Line.testResult (x : Line) (tipSum ringSum threshold : Nat) : TestResult :=
  x.handedResult (rawResult (tipSum / 3) (ringSum / 3) threshold)

/-- A scan of a running party test (R52, R53). That the sums and the scan number are 0 after the completing scan is the
model's choice: the rules give 0 at the start (R52) and at an abandonment (R54) only (log 29). -/
def State.testScan (l : LineNo) (r : Reading) (s : State) : State :=
  let x := s.line l
  let tip := x.test.tipSum + r.tip
  let ring := x.test.ringSum + r.ring
  if x.test.scans < 2 then s.updLine l fun y => { y with test := ⟨true, x.test.scans + 1, tip, ring⟩ }
  else (s.updLine l fun y => { y with test := PartyTest.idle }).handResult l
    (x.testResult tip ring s.settings.idThreshold)

/-! ### A scan under ringing -/

/-- The trip test: `d - b ≥ t` (R154). -/
def Line.tripMet (x : Line) (dc : Nat) : Bool := decide (x.baseline + x.tripThreshold ≤ dc)

/-- The mask and the trip test of a scan under ringing (R154): the inrush-mask count and the trip count after it. -/
def Play.judge (p : Play) (met : Bool) : Play :=
  if p.inrush < 5 then { p with inrush := p.inrush + 1 }
  else if met then { p with trip := p.trip + 1 }
  else { p with trip := 0 }

/-- The measurement of a scan of a TEST entry's burst (R158). -/
def Play.measure (p : Play) (r : Reading) : Play :=
  if 3 ≤ p.burstStep ∧ p.burstStep ≤ 10 then
    { p with acSum := p.acSum + r.ac, dcSum := p.dcSum + r.dc, measured := p.measured + 1 }
  else p

/-- The play record at a ring trip: no drive, the counts and sums at 0 (R155). -/
def Play.tripped (p : Play) : Play :=
  { p with drive := none, inrush := 0, trip := 0, acSum := 0, dcSum := 0, measured := 0 }

/-- The line's entry is a TEST entry. -/
def State.testEntry (s : State) (l : LineNo) : Bool :=
  match s.row l with
  | none => false
  | some e => e.reqType == .test

/-- A scan of a line while ringing is asserted for it, with its play record (R154, R155, R157). -/
def State.ringScan (l : LineNo) (r : Reading) (p : Play) (s : State) : State :=
  let judged := p.judge ((s.line l).tripMet r.dc)
  if 3 ≤ judged.trip then (s.updLine l fun x => { x with play := some p.tripped }).lift l .trip
  else
    let p1 := if s.testEntry l then judged.measure r else judged
    s.updLine l fun x => { x with play := some p1 }

/-! ### Leakage tracking -/

/-- The baseline moved toward a window's average: by (a - b) / 8, truncated toward zero (R57). -/
def trackedBaseline (b a : Nat) : Nat := if b ≤ a then b + (a - b) / 8 else b - (b - a) / 8

/-- A tracking scan (R56), for a line as the scan's hook machine work leaves it. `judged` says that the hook machine
was not suspended at the scan. -/
def Line.tracks (x : Line) (judged : Bool) : Bool := judged && x.call == .idle && x.hook.state == .onhook

/-- The leakage part of a scan (R56, R57). -/
def State.trackScan (l : LineNo) (judged : Bool) (reading : Nat) (s : State) : State :=
  let x := s.line l
  if x.tracks judged then
    if x.track.count < 99 then
      s.updLine l fun y => { y with track := ⟨x.track.count + 1, x.track.sum + reading⟩ }
    else
      (s.updLine l fun y => { y with track := Tracking.empty }).writeBaseline l
        (trackedBaseline x.baseline ((x.track.sum + reading) / 100))
  else s.updLine l fun y => { y with track := Tracking.empty }

/-! ### The scan -/

/-- The present indication changed from yes to no (R2, R41, R59). -/
def State.fittedLost (l : LineNo) (s : State) : State :=
  let s1 := s.updLine l fun x =>
    { x with fitted := false, opts := withoutEnabled x.opts, track := Tracking.empty }
  (s1.markLineFault l .fittedLost).disableLine l

/-- The scan of a line that is not fitted (R2, R41, R56). -/
def State.unfittedScan (l : LineNo) (present : Bool) (s : State) : State :=
  let seen := (s.line l).presentSeen
  let s1 := s.updLine l fun x => { x with presentSeen := true, fitted := present, track := Tracking.empty }
  if seen && present then s1.markLineFault l .fittedReturned else s1

/-- The party test's, the ring engine's or the hook machine's part of the scan of a fitted line (R41, R50). -/
def State.loopScan (l : LineNo) (r : Reading) (s : State) : State :=
  let x := s.line l
  if x.test.running then s.testScan l r
  else match x.play with
    | some p => if p.drive.isSome then s.ringScan l r p else if x.suspended then s else s.hookScan l r
    | none => if x.suspended then s else s.hookScan l r

/-- The scan of a fitted line whose line circuit is present (R41), with the LEAK phase of a calibration run (R164).
That tracking is judged before the LEAK work is the model's (log 13). -/
def State.fittedScan (l : LineNo) (r : Reading) (s : State) : State :=
  ((s.loopScan l r).trackScan l (!(s.line l).suspended) r.loop).leakScan l r.loop

/-- The timebase counts the scan (R31). -/
def State.countScan (l : LineNo) (s : State) : State := s.updTimebase fun t => t.scan l

/-- One scan of line `l` with the readings `r` (R41). -/
def State.scanLine (l : LineNo) (r : Reading) (s : State) : State :=
  let s1 := s.countScan l
  if (s1.line l).fitted then (if r.present then s1.fittedScan l r else s1.fittedLost l)
  else s1.unfittedScan l r.present

/-! ### What a scan finds

The command table names some scans by what they find. These say which scans they are. -/

/-- The scan's readings reach the parts of the supervisor that judge them. -/
def Line.judgedScan (x : Line) (r : Reading) : Bool := x.fitted && r.present

/-- The items that the hook machine hands on at the scan. -/
def Line.itemsAt (x : Line) (r : Reading) : List HookItem :=
  if x.judgedScan r && !x.suspended then (x.hookMove r).2 else []

/-- A hook item is a digit completion. -/
def HookItem.isDigit : HookItem → Bool
  | .digit _ | .digitError => true
  | .offHook | .onHook | .flash | .pulse => false

/-- The scan completes a party test (R52). -/
def Line.completesTest (x : Line) (r : Reading) : Bool := x.judgedScan r && x.test.running && decide (2 ≤ x.test.scans)

/-- The scan finds a ring trip (R154, R155). -/
def Line.tripsAt (x : Line) (r : Reading) : Bool :=
  x.judgedScan r && !x.test.running &&
    (match x.play with
     | none => false
     | some p => p.drive.isSome && decide (3 ≤ (p.judge (x.tripMet r.dc)).trip))

/-- The scan closes the tracking window (R56). -/
def State.closesWindow (s : State) (l : LineNo) (r : Reading) : Bool :=
  let x := s.line l
  let y := (s.loopScan l r).line l
  x.judgedScan r && y.tracks (!x.suspended) && decide (99 ≤ y.track.count)

/-- The scan is the hundredth of a LEAK phase (R164). -/
def State.completesLeak (s : State) (l : LineNo) (r : Reading) : Bool :=
  (s.line l).judgedScan r &&
    (match ((s.loopScan l r).line l).run with
     | none => false
     | some run => run.phase == .leak && decide (99 ≤ run.leakScans))

end Sys2Proof.Machine
end

