-- ==== Sys2Proof/Machine/ExecScan.lean ====
section
/-! DEFINITION. The meanings of the scans (R41). A row named by what the scan finds is that scan, where it finds it, and
no event otherwise (log 4, 5). -/

namespace Sys2Proof.Machine

/-- The step event that the timebase owes is taken before a scan of line `l` that would open an eleventh period (R31): a
sender that lets the tenth period pass without STEP_EVENT gets it so, in the model's own order, with nothing held
(log 3). -/
def State.takeOwed (l : LineNo) (s : State) : State :=
  if s.timebase.owes l then (s.stepTime [] []).settleLink else s

/-- A scan of line `l` named by what it finds: after the step event that is owed, if one is (R31), the scan is taken where
it finds that, and is no event otherwise. -/
def scanning (finds : State → Bool) (l : LineNo) (r : Reading) (s : State) : Outcome :=
  if finds (s.takeOwed l) then finish ((s.takeOwed l).scanLine l r) else .next s

/-- SCAN (R41). -/
def execScan (l : LineNo) (r : Reading) (s : State) : Outcome := finish ((s.takeOwed l).scanLine l r)

/-- OFF_HOOK (R44): the scan at which the qualify count reaches the number required. -/
def execOffHook (l : LineNo) (r : Reading) (s : State) : Outcome :=
  scanning (fun u => ((u.line l).itemsAt r).contains .offHook) l r s

/-- ON_HOOK (R46): the 90th break scan. -/
def execOnHook (l : LineNo) (r : Reading) (s : State) : Outcome :=
  scanning (fun u => ((u.line l).itemsAt r).contains .onHook) l r s

/-- DIGIT_COMPLETE (R48): the scan at which a digit completes. -/
def execDigitComplete (l : LineNo) (r : Reading) (s : State) : Outcome :=
  scanning (fun u => ((u.line l).itemsAt r).any HookItem.isDigit) l r s

/-- PARTY_TEST_RESULT (R53): the third scan of a party test. -/
def execPartyTestResult (l : LineNo) (r : Reading) (s : State) : Outcome :=
  scanning (fun u => (u.line l).completesTest r) l r s

/-- TRACKING_WINDOW_CLOSE (R57): the hundredth tracking scan. -/
def execTrackingWindowClose (l : LineNo) (r : Reading) (s : State) : Outcome :=
  scanning (fun u => u.closesWindow l r) l r s

/-- RING_TRIP (R155): the third consecutive judged scan at which the trip test is met. -/
def execRingTrip (l : LineNo) (r : Reading) (s : State) : Outcome :=
  scanning (fun u => (u.line l).tripsAt r) l r s

/-- LEAK_COMPLETE (R164): the hundredth LEAK scan. -/
def execLeakComplete (l : LineNo) (r : Reading) (s : State) : Outcome :=
  scanning (fun u => u.completesLeak l r) l r s

end Sys2Proof.Machine
end

