-- ==== Sys2Proof/Machine/ExecSupply.lean ====
section
/-! DEFINITION. The meanings of the parts of the arbiter's work at a frame boundary, taken by commands of their own when
the sender has held that work back (R132; log 4, 6), and of the supply fault inputs (R122, R135). -/

namespace Sys2Proof.Machine

/-- EVICTION (R132): entries are suspended until the profile fits. -/
def execEviction (s : State) : Outcome :=
  occurring (s.stageAhead .eviction && !s.evicted.isEmpty) (State.runThrough .eviction) s

/-- WARM_UP_END (R141): the supply becomes ON. -/
def execWarmUpEnd (s : State) : Outcome :=
  occurring (s.stageAhead .warmUp && (s.runThrough .eviction).arb.warmUpEnds) (State.runThrough .warmUp) s

/-- QUEUE_WALK (R133): the walk at a boundary with the supply ON. -/
def execQueueWalk (s : State) : Outcome :=
  occurring (s.stageAhead .queueWalk && (s.runThrough .warmUp).arb.supply == .on) (State.runThrough .queueWalk) s

/-- RING_DELAYED (R134): the frames waited of a line's entry reach the ring-wait threshold. -/
def execRingDelayed (l : LineNo) (s : State) : Outcome :=
  occurring (s.stageAhead .waitCounting && (s.runThrough .queueWalk).delaysNext l) (State.runThrough .waitCounting) s

/-- STANDBY_TIMEOUT (R140): the standby count reaches 0. -/
def execStandbyTimeout (s : State) : Outcome :=
  occurring (s.stageAhead .standbyCounting && (s.runThrough .waitCounting).standbyEnds) State.runBoundary s

/-- FAULT_ASSERTION (R122, R135): a sampled input has become asserted. -/
def execFaultAssertion (c : Channel) (s : State) : Outcome :=
  occurring (s.arb.faultSampled && !s.arb.faulted c) (State.assertFault c) s

/-- FAULT_RELEASE (R122, R135): a sampled input has become clear. -/
def execFaultRelease (c : Channel) (s : State) : Outcome :=
  occurring (s.arb.faultSampled && s.arb.faulted c) (State.releaseFault c) s

/-- FIRST_FAULT_SAMPLE (R122, R146): the first sample after hard reset sets the fault set, with no fault event. -/
def execFirstFaultSample (inputs : BitVec 4) (s : State) : Outcome :=
  occurring (!s.arb.faultSampled) (State.updArb fun a => { a with faults := inputs, faultSampled := true }) s

end Sys2Proof.Machine
end

