-- ==== Sys2Proof/Machine/ExecTime.lean ====
section
/-! DEFINITION. The meanings of the step event, of the frame pulse, and of the works of a step event that the sender
takes by commands of their own (R31; log 4, 6). -/

namespace Sys2Proof.Machine

/-- STEP_EVENT (R31): the step event that the tenth scan brings. Before the tenth scan there is none (R40; log 4). -/
def execStepEvent (first held : List Work) (s : State) : Outcome :=
  occurring s.timebase.stepDue (fun t => t.stepTime first held) s

/-- FSYNC_PULSE (R33). -/
def execFsyncPulse (s : State) : Outcome := finish (s.updTimebase Timebase.pulse)

/-- FOLLOWER_WINDOW_UNMET (R35, R36): the step event at which a window closes unmet. -/
def execFollowerWindowUnmet (first held : List Work) (s : State) : Outcome :=
  occurring (s.timebase.stepDue && s.timebase.windowUnmet) (fun t => t.stepTime first held) s

/-- CALL_TIMER_EXPIRY (R67): a held count of the call timer that brings it to 0. -/
def execCallTimerExpiry (l : LineNo) (s : State) : Outcome :=
  occurring (s.isDue (.callTimer l) && (s.line l).timer == some 1) (fun t => t.takeDue (.callTimer l)) s

/-- PENDING_ALARM_START (R84): the held start of a pending alarm on an IDLE line. -/
def execPendingAlarmStart (l : LineNo) (s : State) : Outcome :=
  occurring (s.isDue (.pendingAlarm l) && (s.line l).call == .idle && (s.line l).alarmPending.isSome)
    (fun t => t.takeDue (.pendingAlarm l)) s

/-- ALARM_COUNT_END (R85): a held count of an alarm that brings it to 0. -/
def execAlarmCountEnd (l : LineNo) (s : State) : Outcome :=
  occurring (s.isDue (.alarmCount l) && (s.line l).call == .alarmRing && decide ((s.line l).alarmCount ≤ 1))
    (fun t => t.takeDue (.alarmCount l)) s

/-- PLAN_ACTIVATION (R16): the held activation of a pending commit on a line that is free. -/
def execPlanActivation (l : LineNo) (s : State) : Outcome :=
  occurring (s.isDue (.activation l) && (s.line l).commitPending && (s.line l).call.activates)
    (fun t => t.takeDue (.activation l)) s

/-- The wait count of a line's run is at its last frame (R166). -/
def Line.waitEnds (x : Line) : Bool :=
  match x.run with
  | none => false
  | some r => r.phase == .wait && decide (9 ≤ r.waitCount)

/-- CALIBRATION_WAIT_LIMIT (R166): the held wait count that reaches 10. -/
def execCalibrationWaitLimit (l : LineNo) (s : State) : Outcome :=
  occurring (s.isDue (.calWait l) && (s.line l).waitEnds) (fun t => t.takeDue (.calWait l)) s

end Sys2Proof.Machine
end

