-- ==== Sys2Proof/Machine/Dispatch.lean ====
section
/-! DEFINITION. What a command does: one arm for each row of spec/opcode_table.json. -/

namespace Sys2Proof.Machine

/-- The effect of a command on everything but the queue. -/
def exec (i : Instr) (s : State) : Host.Outcome State Fault Refusal :=
  match i with
  | .hardReset straps => Sys2Proof.Machine.execHardReset straps s
  | .deviceStatus tag p => Sys2Proof.Machine.execDeviceStatus tag p s
  | .softReset tag p => Sys2Proof.Machine.execSoftReset tag p s
  | .reportMask tag p => Sys2Proof.Machine.execReportMask tag p s
  | .timersSet tag p => Sys2Proof.Machine.execTimersSet tag p s
  | .timebaseSet tag p => Sys2Proof.Machine.execTimebaseSet tag p s
  | .supplySet tag p => Sys2Proof.Machine.execSupplySet tag p s
  | .supplyTiming tag p => Sys2Proof.Machine.execSupplyTiming tag p s
  | .arbiterSet tag p => Sys2Proof.Machine.execArbiterSet tag p s
  | .arbiterRead tag p => Sys2Proof.Machine.execArbiterRead tag p s
  | .partyWrite tag p => Sys2Proof.Machine.execPartyWrite tag p s
  | .partyRead tag p => Sys2Proof.Machine.execPartyRead tag p s
  | .alarmIdentity tag p => Sys2Proof.Machine.execAlarmIdentity tag p s
  | .planCommit tag p => Sys2Proof.Machine.execPlanCommit tag p s
  | .planDiscard tag p => Sys2Proof.Machine.execPlanDiscard tag p s
  | .lineOptions tag p => Sys2Proof.Machine.execLineOptions tag p s
  | .lineLevels tag p => Sys2Proof.Machine.execLineLevels tag p s
  | .lineLoads tag p => Sys2Proof.Machine.execLineLoads tag p s
  | .lineLock tag p => Sys2Proof.Machine.execLineLock tag p s
  | .numberingSet tag p => Sys2Proof.Machine.execNumberingSet tag p s
  | .numberingRead tag p => Sys2Proof.Machine.execNumberingRead tag p s
  | .lineStatus tag p => Sys2Proof.Machine.execLineStatus tag p s
  | .callRecordRead tag p => Sys2Proof.Machine.execCallRecordRead tag p s
  | .cadenceOpen tag p => Sys2Proof.Machine.execCadenceOpen tag p s
  | .cadencePut tag p => Sys2Proof.Machine.execCadencePut tag p s
  | .cadenceStore tag p => Sys2Proof.Machine.execCadenceStore tag p s
  | .cadenceRead tag p => Sys2Proof.Machine.execCadenceRead tag p s
  | .cadenceClear tag p => Sys2Proof.Machine.execCadenceClear tag p s
  | .dialplanWrite tag p => Sys2Proof.Machine.execDialplanWrite tag p s
  | .dialplanRead tag p => Sys2Proof.Machine.execDialplanRead tag p s
  | .ringParty tag p => Sys2Proof.Machine.execRingParty tag p s
  | .ringCancel tag p => Sys2Proof.Machine.execRingCancel tag p s
  | .connect tag p => Sys2Proof.Machine.execConnect tag p s
  | .reject tag p => Sys2Proof.Machine.execReject tag p s
  | .disconnect tag p => Sys2Proof.Machine.execDisconnect tag p s
  | .lineRelease tag p => Sys2Proof.Machine.execLineRelease tag p s
  | .alarmRing tag p => Sys2Proof.Machine.execAlarmRing tag p s
  | .alarmStop tag p => Sys2Proof.Machine.execAlarmStop tag p s
  | .testAccess tag p => Sys2Proof.Machine.execTestAccess tag p s
  | .testRelease tag p => Sys2Proof.Machine.execTestRelease tag p s
  | .calibrate tag p => Sys2Proof.Machine.execCalibrate tag p s
  | .calibrateCancel tag p => Sys2Proof.Machine.execCalibrateCancel tag p s
  | .badKind kind tag p => Sys2Proof.Machine.execBadKind kind tag p s
  | .scan l r => Sys2Proof.Machine.execScan l r s
  | .offHook l r => Sys2Proof.Machine.execOffHook l r s
  | .onHook l r => Sys2Proof.Machine.execOnHook l r s
  | .digitComplete l r => Sys2Proof.Machine.execDigitComplete l r s
  | .partyTestResult l r => Sys2Proof.Machine.execPartyTestResult l r s
  | .trackingWindowClose l r => Sys2Proof.Machine.execTrackingWindowClose l r s
  | .stepEvent first held => Sys2Proof.Machine.execStepEvent first held s
  | .fsyncPulse => Sys2Proof.Machine.execFsyncPulse s
  | .followerWindowUnmet first held => Sys2Proof.Machine.execFollowerWindowUnmet first held s
  | .callTimerExpiry l => Sys2Proof.Machine.execCallTimerExpiry l s
  | .pendingAlarmStart l => Sys2Proof.Machine.execPendingAlarmStart l s
  | .alarmCountEnd l => Sys2Proof.Machine.execAlarmCountEnd l s
  | .planActivation l => Sys2Proof.Machine.execPlanActivation l s
  | .eviction => Sys2Proof.Machine.execEviction s
  | .queueWalk => Sys2Proof.Machine.execQueueWalk s
  | .ringDelayed l => Sys2Proof.Machine.execRingDelayed l s
  | .warmUpEnd => Sys2Proof.Machine.execWarmUpEnd s
  | .standbyTimeout => Sys2Proof.Machine.execStandbyTimeout s
  | .faultAssertion c => Sys2Proof.Machine.execFaultAssertion c s
  | .faultRelease c => Sys2Proof.Machine.execFaultRelease c s
  | .ringTrip l r => Sys2Proof.Machine.execRingTrip l r s
  | .leakComplete l r => Sys2Proof.Machine.execLeakComplete l r s
  | .calibrationWaitLimit l => Sys2Proof.Machine.execCalibrationWaitLimit l s
  | .byteReceived b stopGood => Sys2Proof.Machine.execByteReceived b stopGood s
  | .gap => Sys2Proof.Machine.execGap s
  | .frameSent => Sys2Proof.Machine.execFrameSent s
  | .firstFaultSample inputs => Sys2Proof.Machine.execFirstFaultSample inputs s

end Sys2Proof.Machine
end

