-- ==== Sys2Proof/Machine/Step.lean ====
section
/-! DEFINITION. A step of the block: the command at the front of the queue is taken and carried out (log 1, 2). -/

namespace Sys2Proof.Machine

/-- The state with another queue of commands. -/
def State.withPending (s : State) (q : List Instr) : State := { s with pending := q }

/-- One step: the front command on the state with the queue's rest; on an empty queue the block idles. -/
def step (s : State) : Host.Outcome State Fault Refusal :=
  match s.pending with
  | [] => .next s
  | c :: rest => exec c (s.withPending rest)

/-- The command that a word spells put at the front of the queue; the state unchanged where it spells none. -/
def State.withFetchWord (s : State) (nbits w : Nat) : State :=
  match decodeTableWord nbits w with
  | none => s
  | some c => s.withPending (c :: s.pending)

end Sys2Proof.Machine
end

