-- ==== Sys2Proof/Safety.lean ====
section
/-! DEFINITION. The terms that claims use: what an event leaves alone, what it leaves behind in the reports, the records
and the runs, what a scan finds, and the laws that a good state of the part obeys: the link's queues and sets (R175), the
lock (R8), the cadence table and the edit buffer (R22 to R26), the numbering (R18), the option flag ENABLED (R2), the
placement table and its lists (R124, R127, R131, R138). -/

namespace Sys2Proof.Machine

/-- The command row of a command of the host, with its tag and payload. -/
def HostCmd.instr (c : HostCmd) (tag : Byte) (p : List Byte) : Instr :=
  match c with
  | .deviceStatus => .deviceStatus tag p
  | .softReset => .softReset tag p
  | .reportMask => .reportMask tag p
  | .timersSet => .timersSet tag p
  | .timebaseSet => .timebaseSet tag p
  | .supplySet => .supplySet tag p
  | .supplyTiming => .supplyTiming tag p
  | .arbiterSet => .arbiterSet tag p
  | .arbiterRead => .arbiterRead tag p
  | .partyWrite => .partyWrite tag p
  | .partyRead => .partyRead tag p
  | .alarmIdentity => .alarmIdentity tag p
  | .planCommit => .planCommit tag p
  | .planDiscard => .planDiscard tag p
  | .lineOptions => .lineOptions tag p
  | .lineLevels => .lineLevels tag p
  | .lineLoads => .lineLoads tag p
  | .lineLock => .lineLock tag p
  | .numberingSet => .numberingSet tag p
  | .numberingRead => .numberingRead tag p
  | .lineStatus => .lineStatus tag p
  | .callRecordRead => .callRecordRead tag p
  | .cadenceOpen => .cadenceOpen tag p
  | .cadencePut => .cadencePut tag p
  | .cadenceStore => .cadenceStore tag p
  | .cadenceRead => .cadenceRead tag p
  | .cadenceClear => .cadenceClear tag p
  | .dialplanWrite => .dialplanWrite tag p
  | .dialplanRead => .dialplanRead tag p
  | .ringParty => .ringParty tag p
  | .ringCancel => .ringCancel tag p
  | .connect => .connect tag p
  | .reject => .reject tag p
  | .disconnect => .disconnect tag p
  | .lineRelease => .lineRelease tag p
  | .alarmRing => .alarmRing tag p
  | .alarmStop => .alarmStop tag p
  | .testAccess => .testAccess tag p
  | .testRelease => .testRelease tag p
  | .calibrate => .calibrate tag p
  | .calibrateCancel => .calibrateCancel tag p

/-- Commands carried out one after another, to the first that does not complete. -/
def execAll : List Instr → State → Outcome
  | [], s => .next s
  | i :: is, s =>
    match exec i s with
    | .next t => execAll is t
    | .fault e => .fault e
    | .refused e => .refused e

/-- The reply to a command refused for the field at an offset: BAD_FIELD and the offset, but the status alone for a read
of the profile (R194, R195). -/
def badField (c : HostCmd) (p : List Byte) (offset : Nat) : List Byte :=
  if c = .arbiterRead ∧ p.head? = some 2 then [0x03] else [0x03, toByte offset]

/-! ### What an event leaves alone -/

/-- The plan part of a line: what only LINE_OPTIONS, the plan commands, activation and the present indication change. -/
def Line.plan (x : Line) : Bool × Bool × BitVec 4 × Nat × Nat × Bool × Bool × PartyTable × PartyTable :=
  (x.presentSeen, x.fitted, x.opts, x.margin, x.leakLimit, x.lock, x.commitPending, x.staged, x.active)

/-- The part of the arbiter that only commands of the host and the fault inputs change. -/
def Arbiter.given (a : Arbiter) :
    Tab 4 (Tab 4 Nat) × BitVec 4 × Bool × Nat × Nat × Nat × Nat × Nat × Nat × Nat × BitVec 3 × BitVec 3 :=
  (a.caps, a.faults, a.faultSampled, a.phaseBase, a.stride, a.waitThreshold, a.unitCurrent, a.assumedLoad,
   a.standbyFrames, a.warmUpFrames, a.reloadMask, a.wakeMask)

/-- The part of the link that a marking leaves alone. -/
def Link.core (k : Link) :
    Receiver × List Frame × List Frame × Option Frame × Fin 17 × BitVec 14 × BitVec 4 × Rate :=
  (k.receiver, k.intake, k.replies, k.tx, k.lastServed, k.mask, k.faults, k.rate)

/-- The device-wide tables, the timebase, the held works and the queue. -/
def State.given (s : State) :
    Tab 16 Nat × Tab 32 (Option (List Segment)) × EditBuffer × Tab 12 DialEntry × Settings × Timebase × List Work
      × List Instr :=
  (s.numbering, s.cadence, s.edit, s.dialPlan, s.settings, s.timebase, s.due, s.pending)

/-- From `s` to `t` the tables of the device are as they were, and of the timebase at most what a scan moves: the scan
count, the lines scanned and whether a step event is due (R31). -/
structure State.SameTables (s t : State) : Prop where
  numbering : t.numbering = s.numbering
  cadence : t.cadence = s.cadence
  edit : t.edit = s.edit
  dialPlan : t.dialPlan = s.dialPlan
  settings : t.settings = s.settings
  timebase : t.timebase = { s.timebase with
    scanCount := t.timebase.scanCount, scanned := t.timebase.scanned, stepDue := t.timebase.stepDue }
  pending : t.pending = s.pending

/-- The frame of an event of line `l`: every other line and row is as it was, the tables are, the settings and the
faults of the arbiter are, the queues and the mask of the link are, and of line `l` the plan part is. -/
structure State.OnlyLine (l : LineNo) (s t : State) : Prop where
  tables : s.SameTables t
  arb : t.arb.given = s.arb.given
  link : t.link.core = s.link.core
  plan : (t.line l).plan = (s.line l).plan
  lines : ∀ m, m ≠ l → t.line m = s.line m
  rows : ∀ m, m ≠ l → t.row m = s.row m

/-! ### What an event leaves behind -/

/-- In `t` a report of kind `k` of line `l` stands marked with its data, if the mask `m` enables the kind (R186). -/
def State.marked (t : State) (m : BitVec 14) (k : ReportKind) (l : LineNo) (d : List Byte) : Prop :=
  kindIn k m = true →
    (t.link.slots.get (State.lineEntry l)).get k.idx = some d
      ∧ kindIn k (t.link.pendingSets.get (State.lineEntry l)) = true

/-- From `s` to `t` the call state of line `l` changed, and its STATE report stands marked (R63). -/
def State.tells (s t : State) (l : LineNo) (cause : Option EndCause) : Prop :=
  t.marked s.link.mask .state l
    ([lineByte l, (t.line l).call.code, (s.line l).call.code, endCauseCode cause,
      flagByte (t.line l).alarmPending.isSome] ++ stampBytes s.stamp)

/-- In `t` the record `r` of line `l` has completed with the digits `ds` and a cause, and CALL_END stands marked with
it (R93). -/
def State.ends (s t : State) (l : LineNo) (r : Record) (ds : DigitBuffer) (cause : EndCause) : Prop :=
  let done : Record := { r with
    digits := ds
    endStamp := s.stamp
    cause := some cause
    overwritten := kindIn .callEnd (s.link.pendingSets.get (State.lineEntry l)) }
  (t.line l).record = none ∧ (t.line l).completed = some done
    ∧ t.marked s.link.mask .callEnd l (lineByte l :: recordBytes done ds)

/-- In `t` a report of kind `k` of the device entry stands marked with its data, if the mask `m` enables the kind (R186). -/
def State.markedDevice (t : State) (m : BitVec 14) (k : ReportKind) (d : List Byte) : Prop :=
  kindIn k m = true →
    (t.link.slots.get deviceEntry).get k.idx = some d ∧ kindIn k (t.link.pendingSets.get deviceEntry) = true

/-- The data of a CALIBRATION report, offsets 0 to 34 (R199), for a run as it ended and the line's values as they stand
(R172). -/
def calibrationData (l : LineNo) (x : Line) (r : Run) (stamp : Stamp) : List Byte :=
  [lineByte l, x.calStatus.code, calCauseCode x.calCause, r.method.code, r.phase.code,
    if r.phase = .leak then 0xFF else toByte r.channel.val,
    toByte (r.mask.toNat + ((channels.filter fun c => (r.meas.get c).isSome).map fun c => 2 ^ (4 + c.val)).sum)]
    ++ (channels.flatMap fun c => match r.meas.get c with
      | none => [0, 0, 0, 0]
      | some (ac, dc) => toBytes2 ac ++ toBytes2 dc)
    ++ toBytes2 x.baseline ++ (channels.map fun c => toByte (x.loads.get c)) ++ toBytes2 x.tripThreshold
    ++ stampBytes stamp

/-- From `s` to `t` the run `r` of line `l` ended, and its CALIBRATION report stands marked (R172). -/
def State.runReported (s t : State) (l : LineNo) (r : Run) : Prop :=
  t.marked s.link.mask .calibration l (calibrationData l (t.line l) r s.stamp)

/-- From `s` to `t` the run of line `l` failed with a cause: its status and report, what it leaves alone, the line's
entry gone (R172). -/
structure State.runFailed (s t : State) (l : LineNo) (r : Run) (cause : CalCause) : Prop where
  status : (t.line l).calStatus = .failed ∧ (t.line l).calCause = some cause
  closed : (t.line l).run = none ∧ t.row l = none
  kept : (t.line l).baseline = (s.line l).baseline ∧ (t.line l).loads = (s.line l).loads
    ∧ (t.line l).tripThreshold = (s.line l).tripThreshold
  report : s.runReported t l r

/-- The revert checks in order and what follows them (R102, R103), from `s` to `t`, for the record and the digits of an
origination on line `l` and the party that the digits name. -/
def State.revertJudged (s t : State) (l : LineNo) (rec : Record) (ds : DigitBuffer)
    (called : Option (LineNo × Slot)) : Prop :=
  let x := s.line l
  let fails := fun (named : Option Slot) (cause : EndCause) => (t.line l).call = .reorder
    ∧ (t.line l).timer = some (s.settings.reorder * 10)
    ∧ s.ends t l { rec with called := named } ds cause ∧ s.tells t l (some cause)
  (x.opts.getLsbD 2 = false → fails rec.called .barred)
    ∧ (x.opts.getLsbD 2 = true → called = none → fails rec.called .unassigned)
    ∧ (∀ m i, x.opts.getLsbD 2 = true → called = some (m, i) → m ≠ l → fails rec.called .notSameLine)
    ∧ (∀ i, x.opts.getLsbD 2 = true → called = some (l, i) →
        let e := x.active.entries.get i
        (e.acceptsRevert = false → fails (some i) .notAccepted)
        ∧ (e.acceptsRevert = true → rec.caller = some i → fails (some i) .self)
        ∧ (e.acceptsRevert = true → rec.caller ≠ some i → x.loads.get e.channel = 0 → fails (some i) .noLoad)
        ∧ (e.acceptsRevert = true → rec.caller ≠ some i → x.loads.get e.channel ≠ 0 →
            (t.line l).call = .revertTone ∧ s.tells t l none ∧ (t.line l).timer = some (s.settings.hangupWait * 10)
              ∧ (t.line l).record = some { rec with called := some i, kind := .revert }))

/-- The arbiter after an OFFHOOK (bit 0) or DIGIT (bit 1) standby event: the count loaded if the reload mask names it,
a supply in STANDBY woken if the wake mask does (R139, R141). -/
def Arbiter.afterStandby (a : Arbiter) (bit : Nat) : Arbiter :=
  { a with
    standbyCount := if a.reloadMask.getLsbD bit then a.standbyFrames else a.standbyCount
    supply := if a.supply = .standby ∧ a.wakeMask.getLsbD bit then .warming else a.supply
    warmUpCount := if a.supply = .standby ∧ a.wakeMask.getLsbD bit then a.warmUpFrames else a.warmUpCount }

/-- From `s` to `t` the arbiter took such an event, with the SUPPLY report of a supply that it woke (R143). -/
def State.standbyTaken (s t : State) (bit : Nat) : Prop :=
  t.arb = s.arb.afterStandby bit
    ∧ (s.arb.supply = .standby → s.arb.wakeMask.getLsbD bit = true →
        t.markedDevice s.link.mask .supply ([1, 0xFF, 1, toByte s.arb.faults.toNat] ++ stampBytes s.stamp))

/-- Line `l` of `t` waits for its ringing on channel `f`: a TEST entry with its load, and the run in WAIT, or in RING if
the entry was placed at once (R165, R166). -/
def State.testRequested (t : State) (l : LineNo) (r : Run) (f : Channel) (load : Nat) : Prop :=
  (t.line l).call = .calibrating
    ∧ ∃ e, t.row l = some e ∧ e.cls = .ordinary ∧ e.reqType = .test ∧ e.voiceA = ⟨.bridged, f, 0, load⟩
        ∧ e.voiceB = none
        ∧ (t.line l).run = some { r with
            phase := match e.state with
              | .placed _ => .ring
              | .waiting | .suspended => .wait
            channel := f, reqLoad := load, waitCount := 0 }

/-! ### What a scan finds -/

/-- No step event is owed before a scan of the line: the scan opens no eleventh period of the step (R31; log 3). -/
abbrev State.paced (s : State) (l : LineNo) : Prop :=
  s.timebase.stepDue = false ∨ s.timebase.scanned.getLsbD l.val = false

/-- The scan comes in its time and reaches the hook machine: the line is fitted, its circuit present, and the machine not
suspended (R41, R50). -/
def State.watched (s : State) (l : LineNo) (r : Reading) : Prop :=
  s.paced l ∧ (s.line l).fitted = true ∧ r.present = true ∧ (s.line l).call ≠ .disabled ∧ (s.line l).call ≠ .test
    ∧ (s.line l).test.running = false ∧ (s.line l).ringing = false

/-- The scan is a make scan (R42). -/
def State.makes (s : State) (l : LineNo) (r : Reading) : Prop := (s.line l).baseline + (s.line l).margin ≤ r.loop

/-- The scan gives the off-hook event (R44). -/
def State.qualifies (s : State) (l : LineNo) (r : Reading) : Prop :=
  s.watched l r ∧ s.makes l r ∧ (s.line l).hook.state = .qualify
    ∧ (if (s.line l).leaky then 10 else 5) ≤ (s.line l).hook.qualify + 1

/-- The scan gives the on-hook event (R46). -/
def State.hangsUp (s : State) (l : LineNo) (r : Reading) : Prop :=
  s.watched l r ∧ ¬s.makes l r ∧ (s.line l).hook.state = .brk ∧ (s.line l).hook.brk = 89

/-- The scan completes a digit of `k` pulses (R45, R47, R48): as its thirtieth make scan in a row, by a hit of 1 or 2
break scans that is counted in, or, with a flash after it, by the end of a break of 11 scans or more. -/
def State.dials (s : State) (l : LineNo) (r : Reading) (k : Nat) (flash : Bool) : Prop :=
  s.watched l r ∧ s.makes l r ∧ (s.line l).hook.pulse = k ∧ 1 ≤ k
    ∧ ((flash = false ∧ (s.line l).hook.state = .offhook ∧ (s.line l).hook.make = 29)
        ∨ (flash = false ∧ (s.line l).hook.state = .brk ∧ (s.line l).hook.brk ≤ 2 ∧ (s.line l).hook.make < 30
            ∧ 30 ≤ (s.line l).hook.make + (s.line l).hook.brk + 1)
        ∨ (flash = true ∧ (s.line l).hook.state = .brk ∧ 11 ≤ (s.line l).hook.brk))

/-- The scan is no tracking scan (R56): the line is not fitted or its circuit is gone, the hook machine is suspended, or
the machine's work does not leave it ONHOOK in IDLE. -/
def State.discards (s : State) (l : LineNo) (r : Reading) : Prop :=
  s.paced l ∧ ((s.line l).fitted = false ∨ r.present = false ∨ (s.line l).call = .disabled ∨ (s.line l).call = .test
    ∨ (s.line l).test.running = true ∨ (s.line l).ringing = true
    ∨ (s.watched l r ∧ (s.makes l r ∨ (s.line l).hook.state = .offhook
        ∨ ((s.line l).hook.state = .brk ∧ (s.line l).hook.brk < 89)
        ∨ (((s.line l).hook.state = .onhook ∨ (s.line l).hook.state = .qualify) ∧ (s.line l).call ≠ .idle))))

/-- The scan finds a ring trip: the mask is past, and the trip test is met for the third time in a row (R154, R155). -/
def State.trips (s : State) (l : LineNo) (r : Reading) : Prop :=
  s.paced l ∧ (s.line l).fitted = true ∧ r.present = true ∧ (s.line l).test.running = false
    ∧ (s.line l).baseline + (s.line l).tripThreshold ≤ r.dc
    ∧ ∃ p d, (s.line l).play = some p ∧ p.drive = some d ∧ p.inrush = 5 ∧ p.trip = 2

/-- The command is a scan that finds a lift: by an off-hook event (SILENT) or by a ring trip (TRIP) (R78, R108). -/
def State.liftedBy (s : State) (l : LineNo) (r : Reading) (m : Manner) (i : Instr) : Prop :=
  (m = .silent ∧ s.qualifies l r ∧ (i = .offHook l r ∨ i = .scan l r))
    ∨ (m = .trip ∧ s.trips l r ∧ (i = .ringTrip l r ∨ i = .scan l r))

/-- The scan is the third of a party test, with these averages (R52, R53). -/
def State.endsTest (s : State) (l : LineNo) (r : Reading) (tip ring : Nat) : Prop :=
  s.paced l ∧ (s.line l).fitted = true ∧ r.present = true ∧ (s.line l).test.running = true ∧ (s.line l).test.scans = 2
    ∧ ((s.line l).test.tipSum + r.tip) / 3 = tip ∧ ((s.line l).test.ringSum + r.ring) / 3 = ring

/-! ### The link -/

/-- The link is ready for a command (R178, R179): no frame waits, and the reply queue has room. -/
def State.ready (s : State) : Prop := s.link.intake = [] ∧ s.link.replies.length < 4

/-- A reply joins the reply queue, and an IDLE transmitter chooses (R179, R183). -/
def State.replied (r : Frame) (s : State) : State := (s.pushReply r).transmit

/-! ### Laws -/

/-- Every pending report set holds enabled kinds only (R175). -/
def Link.setsLawful (k : Link) : Prop := ∀ e, k.pendingSets.get e &&& ~~~k.mask = 0

/-- The link's law: at most 4 frames, at most 4 replies, no pending report of a disabled kind (R175). -/
def State.linkLaw (s : State) : Prop :=
  s.link.intake.length ≤ 4 ∧ s.link.replies.length ≤ 4 ∧ s.link.setsLawful

/-- The lock's law: no locked line has a commit pending (R8). -/
def State.lockLaw (s : State) : Prop := ∀ l, (s.line l).lock = true → (s.line l).commitPending = false

/-- A segment's duration is 1 to 60 steps (R22). -/
def Segment.lawful (g : Segment) : Prop := 1 ≤ g.dur ∧ g.dur ≤ 60

/-- A stored pattern (R22): 1 to 12 segments, complete, with at least one ON segment. -/
def patternLawful (segs : List Segment) : Prop :=
  segs.length ≤ 12 ∧ durSum segs = 60 ∧ segs.any (·.on) = true ∧ ∀ g ∈ segs, g.lawful

/-- The edit buffer (R24): at most 12 segments, a running sum of at most 60, never bound to slot 0. -/
def EditBuffer.lawful (b : EditBuffer) : Prop :=
  b.segs.length ≤ 12 ∧ durSum b.segs ≤ 60 ∧ (∀ g ∈ b.segs, g.lawful) ∧ b.bound ≠ some 0

/-- The cadence law (R22 to R24): every DEFINED slot holds a lawful pattern, slot 0 the built-in one, and the edit
buffer is lawful. -/
def State.cadenceLaw (s : State) : Prop :=
  (∀ p segs, s.cadence.get p = some segs → patternLawful segs) ∧ s.cadence.get 0 = some builtinPattern
    ∧ s.edit.lawful

/-- The numbering law (R18): the boundaries are at most 1000 and non-decreasing. -/
def State.numberingLaw (s : State) : Prop := ordered s.numbering = true

/-- ENABLED stands on fitted lines only (R2, R4). -/
def State.enabledLaw (s : State) : Prop := ∀ l, (s.line l).enabled = true → (s.line l).fitted = true

/-- What the lock freezes of a line (R8): both party tables, the three flags, and its lock. -/
def Line.frozenPart (x : Line) : PartyTable × PartyTable × BitVec 4 × Bool :=
  (x.staged, x.active, x.opts &&& frozenFlags, x.lock)

/-- The run of suffixes of a line: its lower and its upper boundary (R18). -/
def State.range (s : State) (l : LineNo) : Nat × Nat := (lowerOf s.numbering l, s.numbering.get l)

/-- A line's entry is PLACED. -/
def State.placed (s : State) (l : LineNo) : Bool :=
  match s.row l with
  | some { state := .placed _, .. } => true
  | _ => false

/-- A line's entry is WAITING or SUSPENDED. -/
def State.queued (s : State) (l : LineNo) : Bool :=
  match s.row l with
  | none => false
  | some _ => !s.placed l

/-- The arbiter's law (R127, R131, R138): the placed order list holds the lines of the PLACED entries and the wait
queue those of the others, each once; ALARM entries stand ahead of ORDINARY ones in the queue; and no entry is PLACED
unless the supply is ON. -/
structure State.arbiterLaw (s : State) : Prop where
  placedOnce : s.arb.placedOrder.Nodup
  queuedOnce : s.arb.waitQueue.Nodup
  placedHeld : ∀ l, l ∈ s.arb.placedOrder ↔ s.placed l = true
  queueHeld : ∀ l, l ∈ s.arb.waitQueue ↔ s.queued l = true
  alarmsFirst : s.arb.waitQueue.Pairwise fun l m => s.alarmEntry m = true → s.alarmEntry l = true
  supplyOn : ∀ l, s.placed l = true → s.arb.supply = .on

/-- The wait queue of `s` once lines suspended in one event, oldest placed first, have joined the front of their sections
(R131). -/
def State.queueWith (s : State) (ls : List LineNo) : List LineNo :=
  ls.filter s.alarmEntry ++ s.arb.waitQueue.filter s.alarmEntry
    ++ (ls.filter fun l => !s.alarmEntry l) ++ s.arb.waitQueue.filter fun l => !s.alarmEntry l

/-- The load of a line's entry on a channel at a cycle step: that of its voice when it is PLACED and ON, else 0 (R126). -/
def State.loadOf (s : State) (c : Channel) (cs : Nat) (l : LineNo) : Nat :=
  match s.row l with
  | none => 0
  | some e =>
    match e.state with
    | .placed φ => s.loadAt e φ c cs
    | .waiting | .suspended => 0

/-- The profile's law (R126): for every channel and cycle step, the profile value is the sum of the loads of the PLACED
voices on that channel that are ON at that step. -/
def State.profileLaw (s : State) : Prop :=
  ∀ (c : Channel) (cs : Fin 120), (s.arb.profile.get c).get cs = (lineNos.map (s.loadOf c cs.val)).sum

/-- A table fit to be active (R15): no two present parties share a ring identity, and every pattern that the table
references is DEFINED. -/
def State.tableLawful (s : State) (t : PartyTable) : Prop :=
  (∀ i j, i ≠ j → (t.entries.get i).present = true → (t.entries.get j).present = true →
      ((t.entries.get i).side, (t.entries.get i).channel, (t.entries.get i).pattern)
        ≠ ((t.entries.get j).side, (t.entries.get j).channel, (t.entries.get j).pattern))
    ∧ (∀ i, (t.entries.get i).present = true → s.cadence.get (t.entries.get i).pattern ≠ none)
    ∧ ∀ p, t.alarmPattern = some p → s.cadence.get p ≠ none

/-- The plan's law (R15): every active table, and every staged table whose line has commit-pending set, is lawful. -/
def State.planLaw (s : State) : Prop :=
  ∀ l, s.tableLawful (s.line l).active ∧ ((s.line l).commitPending = true → s.tableLawful (s.line l).staged)

/-- The entry law (R124): a line's entry stands in the call state of its owner, with the class of its request, and a
TEST entry with its run in WAIT or RING; a run stands in CALIBRATING only (R162). -/
def State.entryLaw (s : State) : Prop :=
  (∀ l e, s.row l = some e → match e.reqType with
    | .terminating => (s.line l).call = .termRing ∧ e.cls = .ordinary
    | .revert => (s.line l).call = .revertRing ∧ e.cls = .ordinary
    | .alarm => (s.line l).call = .alarmRing ∧ e.cls = .alarm
    | .test => (s.line l).call = .calibrating ∧ e.cls = .ordinary
        ∧ ∃ r, (s.line l).run = some r ∧ (r.phase = .wait ∨ r.phase = .ring))
    ∧ ∀ l, (s.line l).run ≠ none → (s.line l).call = .calibrating

/-- The law of the counts: those of the hook machine, of the party test, of the tracking window and of the ring engine stay
in their ranges (R43, R52, R56, R148), no line but one in IDLE has a tracking window begun (R56), and the scan count stays in
its range and stands at 9 when a step event is due (R31). -/
def State.countLaw (s : State) : Prop :=
  s.timebase.scanCount ≤ 9 ∧ (s.timebase.stepDue = true → s.timebase.scanCount = 9) ∧ ∀ l, (s.line l).hook.qualify ≤ 10 ∧ (s.line l).hook.brk ≤ 90 ∧ (s.line l).hook.make ≤ 30
    ∧ (s.line l).hook.pulse ≤ 11 ∧ (s.line l).test.scans ≤ 3 ∧ (s.line l).track.count ≤ 100
    ∧ ((s.line l).call ≠ .idle → (s.line l).track = ⟨0, 0⟩)
    ∧ ∀ p, (s.line l).play = some p → p.burstStep ≤ 255 ∧ p.inrush ≤ 5 ∧ p.trip ≤ 3

end Sys2Proof.Machine
end

