-- ==== Sys2Proof/Certificates/Slice0/Obligations.lean ====
section
/-! DEFINITION. The statements for the provers. An event's statement gives the state `t` that its own effect leaves;
what every event ends with, the dispatcher and the transmitter's choice (`State.settleLink`), is applied to it. -/

open Sys2Proof Sys2Proof.Machine

/-! ### The block's queue, reset -/

/-- Step takes the front command and runs it on the state with the queue's rest (log 1); on an empty queue the block
idles, which is the model's choice (log 2). -/
def Obligations.StepTakesTheFrontCommand : Prop :=
  (∀ (c : Instr) (rest : List Instr) (s : State), step (s.withPending (c :: rest)) = exec c (s.withPending rest))
    ∧ ∀ s : State, s.pending = [] → step s = .next s

/-- HARD_RESET: every block at its hard-reset value, the rate from the straps (R191); the sender's queue is not the
part's (log 1). -/
def Obligations.HardResetGivesResetState : Prop :=
  ∀ (straps : Rate) (s : State),
    exec (.hardReset straps) s = .next { State.reset with link := Link.reset straps, pending := s.pending }

/-- What HARD_RESET leaves, in every state: every line, the numbering and the settings (R20, R60, R68, R95, R160, R174),
and the device-wide blocks (R30, R40, R119, R146, R191). The values that the spec leaves to the
model are those of log 3, 20, 21 and 31, and stand in `State.reset` alone. -/
def Obligations.HardResetValues : Prop :=
  ∀ (straps : Rate) (s : State), ∃ t : State, exec (.hardReset straps) s = .next t ∧ (∀ l : LineNo,
    let x := t.line l
    x.fitted = false ∧ x.opts = 0 ∧ x.margin = 80 ∧ x.leakLimit = 50 ∧ x.tripThreshold = 200
      ∧ (∀ c, x.loads.get c = 0) ∧ x.baseline = 0 ∧ x.lock = false ∧ x.commitPending = false
      ∧ x.calStatus = .never ∧ x.calCause = none ∧ x.calMethod = none
      ∧ (∀ i, x.staged.entries.get i = ⟨false, .tip, 0, 0, false⟩)
      ∧ x.staged.alarmChannel = 0 ∧ x.staged.alarmPattern = none
      ∧ (∀ i, x.active.entries.get i = ⟨false, .tip, 0, 0, false⟩)
      ∧ x.active.alarmChannel = 0 ∧ x.active.alarmPattern = none
      ∧ x.hook = ⟨.onhook, 0, 0, 0, 0⟩ ∧ x.test = ⟨false, 0, 0, 0⟩ ∧ x.track = ⟨0, 0⟩ ∧ x.leaky = false
      ∧ x.suspended = true
      ∧ x.call = .disabled ∧ x.saved = none ∧ x.timer = none ∧ x.dialBegun = false
      ∧ x.digits = ⟨[], false⟩ ∧ x.out = ⟨[], false, false⟩ ∧ x.alarmCount = 0 ∧ x.alarmPending = none
      ∧ x.record = none ∧ x.completed = none ∧ x.drive = .park ∧ x.play = none ∧ x.run = none)
    ∧ (∀ l, t.numbering.get l = 0)
    ∧ (∀ n, t.decodeSuffix n = none)
    ∧ t.settings = ⟨20, 8, 5, 30, 120, 180, 20, 60, 180⟩
    ∧ t.cadence.get 0 = some [⟨true, 10⟩, ⟨false, 50⟩]
    ∧ (∀ p, p ≠ 0 → t.cadence.get p = none)
    ∧ t.edit = ⟨none, []⟩
    ∧ (∀ i, t.dialPlan.get i = ⟨false, [], 0, .refuse⟩)
    ∧ (let b := t.timebase
       b.position = 0 ∧ b.parity = false ∧ b.scanCount = 0 ∧ b.stamp = 0 ∧ b.role = .alone ∧ b.follower = none
         ∧ b.latch = false ∧ b.remembered = none)
    ∧ (let a := t.arb
       (∀ c w, (a.caps.get c).get w = 0) ∧ a.faults = 0 ∧ a.phaseBase = 0 ∧ a.stride = 5 ∧ a.waitThreshold = 5
         ∧ a.unitCurrent = 60 ∧ a.assumedLoad = 20 ∧ (∀ l, a.rows.get l = none)
         ∧ (∀ c cs, (a.profile.get c).get cs = 0) ∧ a.placedOrder = [] ∧ a.waitQueue = [] ∧ a.supply = .standby
         ∧ a.supen = false ∧ a.standbyCount = 20 ∧ a.warmUpCount = 0 ∧ a.standbyFrames = 20 ∧ a.warmUpFrames = 2
         ∧ a.reloadMask = 0b111 ∧ a.wakeMask = 0b001)
    ∧ (let k := t.link
       k.receiver = .hunt ∧ k.intake = [] ∧ k.replies = [] ∧ k.tx = none ∧ k.lastServed = 16
         ∧ (∀ e, k.pendingSets.get e = 0) ∧ (∀ e r, (k.slots.get e).get r = none) ∧ k.mask = 0x3FFF
         ∧ k.faults = 0 ∧ k.rate = straps)

/-! ### The link -/

/-- The judging of a frame taken by the dispatcher, in the order of R180, for each of the 41 commands and for a kind
that is no command kind. Which offset a BAD_FIELD names in DIALPLAN_WRITE and in CALIBRATE (log 16, 17), and that a
refused read of the profile carries none (log 15), are the model's readings of R194 and R195. -/
def Obligations.FramesAreJudgedInOrder : Prop :=
  (∀ (k tag : Byte) (p : List Byte) (s : State), s.ready → (∀ c : HostCmd, c.code ≠ k) →
      exec (.badKind k tag p) s = .next (s.replied ⟨0xFF, tag, [0x04, k]⟩))
    ∧ ∀ (c : HostCmd) (tag : Byte) (p : List Byte) (s : State), s.ready →
      (lengthFits c p.length = false →
        exec (c.instr tag p) s = .next (s.replied ⟨c.code + 0x80, tag, [0x05]⟩))
      ∧ (lengthFits c p.length = true → ∀ o, firstFailing (fieldChecks c p) = some o →
        exec (c.instr tag p) s = .next (s.replied ⟨c.code + 0x80, tag, badField c p o⟩))
      ∧ (lengthFits c p.length = true → firstFailing (fieldChecks c p) = none →
        exec (c.instr tag p) s =
          .next ((s.carry c p).1.replied ⟨c.code + 0x80, tag, (s.carry c p).2⟩))

/-- The receive assembler's table (R176) and its faults (R177): what a character does, and what the gap timer's expiry
does. -/
def Obligations.AssemblerFollowsItsTable : Prop :=
  (∀ (b : Byte) (s : State), exec (.byteReceived b false) s = .next s)
    ∧ (∀ (b : Byte) (s : State), s.link.receiver = .hunt →
        exec (.byteReceived b true) s =
          finish { s with link := { s.link with receiver := if b = 0xC3 then .length else .hunt } })
    ∧ (∀ (b : Byte) (s : State), s.link.receiver = .length → 2 ≤ b.toNat → b.toNat ≤ 62 →
        exec (.byteReceived b true) s =
          finish { s with link := { s.link with receiver := .body b.toNat [] b.toNat } })
    ∧ (∀ (b : Byte) (s : State), s.link.receiver = .length → (b.toNat < 2 ∨ 62 < b.toNat) →
        exec (.byteReceived b true) s =
          finish (State.linkFault .badLength { s with link := { s.link with receiver := .hunt } }))
    ∧ (∀ (b : Byte) (n : Nat) (held : List Byte) (sum : Nat) (s : State), s.link.receiver = .body n held sum →
        exec (.byteReceived b true) s =
          finish { s with link := { s.link with
            receiver :=
              if n ≤ (held ++ [b]).length then .check (held ++ [b]) (sum + b.toNat)
              else .body n (held ++ [b]) (sum + b.toNat) } })
    ∧ (∀ (b kind tag : Byte) (p : List Byte) (sum : Nat) (s : State),
        s.link.receiver = .check (kind :: tag :: p) sum → (sum + b.toNat) % 256 = 0 →
        exec (.byteReceived b true) s =
          finish (State.offer ⟨kind, tag, p⟩ { s with link := { s.link with receiver := .hunt } }))
    ∧ (∀ (b : Byte) (held : List Byte) (sum : Nat) (s : State), s.link.receiver = .check held sum →
        (sum + b.toNat) % 256 ≠ 0 →
        exec (.byteReceived b true) s =
          finish (State.linkFault .badCheck { s with link := { s.link with receiver := .hunt } }))
    ∧ (∀ s : State, s.link.receiver ≠ .hunt →
        exec .gap s = finish (State.linkFault .gap { s with link := { s.link with receiver := .hunt } }))
    ∧ (∀ s : State, s.link.receiver = .hunt → exec .gap s = .next s)

/-- A good frame joins the intake queue when it holds fewer than 4 frames, and is dropped with an INTAKE_FULL fault when
it holds 4 (R178); the dispatcher takes nothing while the reply queue holds 4 replies (R179). A link fault (R177): its
cause joins the link-fault set, and LINK is marked on the device entry with the cause, the set after it and the stamp;
with LINK disabled the set accumulates without a report. -/
def Obligations.FullQueuesAndLinkFaults : Prop :=
  (∀ (c : HostCmd) (tag : Byte) (p : List Byte) (s : State) (f : Frame),
    s.link.replies.length = 4 → s.link.tx = some f →
      (s.link.intake.length < 4 →
        exec (c.instr tag p) s =
          .next { s with link := { s.link with intake := s.link.intake ++ [⟨c.code, tag, p⟩] } })
      ∧ (s.link.intake.length = 4 → ∃ t, exec (c.instr tag p) s = .next t
          ∧ t.link.intake = s.link.intake ∧ t.link.replies = s.link.replies ∧ t.link.tx = s.link.tx
          ∧ t.link.faults = s.link.faults ||| 8
          ∧ t = { s with link := t.link }))
  ∧ ∀ (c : LinkFault) (s : State),
    (s.linkFault c).link.faults = s.link.faults ||| c.bit
      ∧ (kindIn .link s.link.mask = true →
          ((s.linkFault c).link.slots.get 16).get 13
              = some ([toByte c.bit.toNat, toByte (s.link.faults ||| c.bit).toNat] ++ stampBytes s.stamp)
            ∧ (s.linkFault c).link.pendingSets.get 16 = s.link.pendingSets.get 16 ||| 0x2000)
      ∧ (kindIn .link s.link.mask = false →
          s.linkFault c = { s with link := { s.link with faults := s.link.faults ||| c.bit } })

/-- A command frame sent byte by byte (R184: start, length, kind, tag, payload, check) into an assembler in HUNT has,
with its last byte, the effect of the command's row: no byte of the envelope is lost or read wrongly (R176). The transmitter
is busy, or IDLE with nothing to send. -/
def Obligations.CommandFrameByByteIsCommand : Prop :=
  ∀ (c : HostCmd) (tag : Byte) (p : List Byte) (s : State),
    p.length ≤ 60 → s.link.receiver = .hunt → s.link.intake = [] →
    (s.link.tx ≠ none ∨ (s.link.replies = [] ∧ ∀ e, s.link.pendingSets.get e = 0)) →
      execAll ((Frame.wire ⟨c.code, tag, p⟩).map fun b => .byteReceived b true) s = exec (c.instr tag p) s

/-- What the transmitter does when it finishes a frame (R183, R185): the reply at the head of the reply queue; else the
lowest pending kind of the first entry after the last served one, with the data of its slot; else IDLE. A frame that
waits behind a full reply queue is taken and judged in the place that the chosen reply frees (R179, R180); that this is
in the same event is the model's choice (log 9). -/
def Obligations.FrameSentChoosesNext : Prop :=
  (∀ (s : State) (sent f : Frame) (fs : List Frame) (r : Frame) (rs : List Frame), s.link.tx = some sent →
    s.link.intake = f :: fs → s.link.replies = r :: rs → s.link.replies.length = 4 →
    let u : State := { s with link := { s.link with tx := some r, replies := rs, intake := fs } }
    let answers := fun (t : State) (k : Byte) (d : List Byte) =>
      exec .frameSent s = .next { t with link := { t.link with tx := some r, intake := fs, replies := rs ++ [⟨k, f.tag, d⟩] } }
    ((∀ c : HostCmd, c.code ≠ f.kind) → answers u 0xFF [0x04, f.kind])
    ∧ ∀ c : HostCmd, c.code = f.kind →
      (lengthFits c f.payload.length = false → answers u (f.kind + 0x80) [0x05])
      ∧ (lengthFits c f.payload.length = true → ∀ o, firstFailing (fieldChecks c f.payload) = some o →
          answers u (f.kind + 0x80) (badField c f.payload o))
      ∧ (lengthFits c f.payload.length = true → firstFailing (fieldChecks c f.payload) = none →
          answers (u.carry c f.payload).1 (f.kind + 0x80) (u.carry c f.payload).2))
  ∧ ∀ (s : State) (f : Frame), s.link.tx = some f → s.link.intake = [] →
    (∀ r rs, s.link.replies = r :: rs →
      exec .frameSent s = .next { s with link := { s.link with tx := some r, replies := rs } })
    ∧ (s.link.replies = [] → (∀ e, s.link.pendingSets.get e = 0) →
        exec .frameSent s = .next { s with link := { s.link with tx := none } })
    ∧ (∀ (j : Fin 17) (k : ReportKind), s.link.replies = [] →
        (∀ i : Fin 17, i < j → s.link.pendingSets.get (s.link.lastServed + 1 + i) = 0) →
        kindIn k (s.link.pendingSets.get (s.link.lastServed + 1 + j)) = true →
        (∀ k' : ReportKind, k'.idx < k.idx → kindIn k' (s.link.pendingSets.get (s.link.lastServed + 1 + j)) = false) →
        ∃ t, exec .frameSent s = .next t
          ∧ t.link.tx = some ⟨k.code, 0, ((s.link.slots.get (s.link.lastServed + 1 + j)).get k.idx).getD []⟩
          ∧ t.link.lastServed = s.link.lastServed + 1 + j
          ∧ kindIn k (t.link.pendingSets.get (s.link.lastServed + 1 + j)) = false
          ∧ (∀ k' : ReportKind, k' ≠ k →
              kindIn k' (t.link.pendingSets.get (s.link.lastServed + 1 + j))
                = kindIn k' (s.link.pendingSets.get (s.link.lastServed + 1 + j)))
          ∧ (∀ e, e ≠ s.link.lastServed + 1 + j → t.link.pendingSets.get e = s.link.pendingSets.get e)
          ∧ t.link.slots = s.link.slots ∧ t.link.replies = []
          ∧ t.link.faults = (if k = .link then 0 else s.link.faults)
          ∧ (∀ l : LineNo, t.line l =
              if k = .digits ∧ s.link.lastServed + 1 + j = State.lineEntry l
              then { s.line l with out := ⟨[], false, false⟩ } else s.line l))

/-- Marking (R186): with the kind in the mask, the slot is written and the kind joins the entry's pending set; with the
kind out of it, nothing happens. -/
def Obligations.MarkingLatchesEnabledKinds : Prop :=
  ∀ (k : ReportKind) (e : Fin 17) (d : List Byte) (s : State),
    (kindIn k s.link.mask = false → s.mark k e d = s)
    ∧ (kindIn k s.link.mask = true →
        ((s.mark k e d).link.slots.get e).get k.idx = some d
        ∧ kindIn k ((s.mark k e d).link.pendingSets.get e) = true
        ∧ (∀ (e' : Fin 17) (k' : ReportKind), (e' ≠ e ∨ k' ≠ k) →
            ((s.mark k e d).link.slots.get e').get k'.idx = (s.link.slots.get e').get k'.idx
            ∧ kindIn k' ((s.mark k e d).link.pendingSets.get e') = kindIn k' (s.link.pendingSets.get e'))
        ∧ (s.mark k e d).link.core = s.link.core
        ∧ s.mark k e d = { s with link := (s.mark k e d).link })

/-! ### Reading commands -/

/-- DEVICE_STATUS, ARBITER_READ, CADENCE_READ and DIALPLAN_READ (R29, R99, R145, R189, with the layouts of R196 and
R198): the state as it stands, nothing changed. -/
def Obligations.DeviceReadsReturnTheState : Prop :=
  ∀ (tag : Byte) (s : State), s.ready →
    (let t := s.timebase; let v := s.settings; let a := s.arb
     exec (.deviceStatus tag []) s = .next (s.replied ⟨0x81, tag,
      [0x00, t.role.code, followerCode t.follower, toByte t.position.val, flagByte t.parity] ++ stampBytes t.stamp
        ++ toBytes2 v.firstDigit ++ toBytes2 v.interdigit ++ toBytes2 v.exchangeWait ++ toBytes2 v.hangupWait
        ++ toBytes2 v.revertNoAnswer ++ toBytes2 v.termNoAnswer ++ toBytes2 v.reorder
        ++ [toByte v.idThreshold] ++ toBytes2 v.answerCurrent
        ++ [toByte a.phaseBase, toByte a.stride, toByte a.waitThreshold, toByte a.unitCurrent, toByte a.assumedLoad,
            toByte a.standbyFrames, toByte a.warmUpFrames, toByte a.reloadMask.toNat, toByte a.wakeMask.toNat]
        ++ toBytes2 s.link.mask.toNat
        ++ [toByte s.link.faults.toNat, 0, toByte s.link.replies.length, rateCode s.link.rate]⟩))
    ∧ (∀ x y : Byte, exec (.arbiterRead tag [0, x, y]) s = .next (s.replied ⟨0x89, tag,
        [0x00, s.arb.supply.code, toByte s.arb.standbyCount, toByte s.arb.warmUpCount, toByte s.arb.faults.toNat,
         toByte s.arb.placedOrder.length] ++ s.arb.placedOrder.map lineByte
          ++ [toByte s.arb.waitQueue.length] ++ s.arb.waitQueue.map lineByte
          ++ [toByte (s.arb.waitQueue.filter s.alarmEntry).length]⟩))
    ∧ (∀ (l : LineNo) (y : Byte), s.row l = none →
        exec (.arbiterRead tag [1, lineByte l, y]) s = .next (s.replied ⟨0x89, tag,
          [0x00, 0, 0, 0, 0, 0xFF, 0xFF, 0, 0, 0, 0xFF, 0xFF, 0, 0, 0xFF, 0, 0]⟩))
    ∧ (∀ (l : LineNo) (y : Byte) (e : Entry), s.row l = some e →
        exec (.arbiterRead tag [1, lineByte l, y]) s = .next (s.replied ⟨0x89, tag,
          [0x00, 1, e.cls.code, e.reqType.code] ++ voiceBytes e.voiceA
            ++ (match e.voiceB with
                | none => [0, 0, 0xFF, 0xFF, 0]
                | some b => 1 :: voiceBytes b)
            ++ [e.state.code, (match e.state with | .placed φ => toByte φ | _ => 0xFF), toByte e.waited,
                flagByte e.delayed]⟩))
    ∧ (∀ (c : Channel) (half : Fin 2), exec (.arbiterRead tag [2, toByte c.val, toByte half.val]) s =
        .next (s.replied ⟨0x89, tag,
          (List.range 60).map fun k => toByte (min 255 (profileAt s.arb.profile c (half.val * 60 + k)))⟩))
    ∧ (∀ p : PatternNo, s.cadence.get p = none →
        exec (.cadenceRead tag [toByte p.val]) s = .next (s.replied ⟨0xA3, tag, [0x00, toByte p.val, 0, 0]⟩))
    ∧ (∀ (p : PatternNo) (segs : List Segment), s.cadence.get p = some segs →
        exec (.cadenceRead tag [toByte p.val]) s = .next (s.replied ⟨0xA3, tag,
          [0x00, toByte p.val, 1, toByte segs.length] ++ segs.flatMap fun g => [flagByte g.on, toByte g.dur]⟩))
    ∧ exec (.dialplanRead tag []) s = .next (s.replied ⟨0xA6, tag,
        0x00 :: (((List.finRange 12).map s.dialPlan.get).flatMap fun e =>
          [toByte ((if e.enabled then 128 else 0) + e.action.code * 16 + e.pre.length), toByte e.tail]
            ++ packNibbles (((e.pre.map fun (d : Digit) => d.val) ++ [0xF, 0xF, 0xF, 0xF]).take 4))⟩)

/-- LINE_STATUS, PARTY_READ, CALL_RECORD_READ and NUMBERING_READ (R9, R14, R19, R94, with the layouts of R197). -/
def Obligations.LineReadsReturnTheState : Prop :=
  ∀ (tag : Byte) (l : LineNo) (s : State), s.ready →
    (let x := s.line l
     exec (.lineStatus tag [lineByte l]) s = .next (s.replied ⟨0x9B, tag,
      [0x00, flagByte x.fitted, toByte (if x.fitted then x.opts else x.opts &&& 0b1110).toNat]
        ++ toBytes2 x.margin ++ toBytes2 x.leakLimit ++ toBytes2 x.tripThreshold
        ++ [toByte (x.loads.get 0), toByte (x.loads.get 1), toByte (x.loads.get 2), toByte (x.loads.get 3)]
        ++ toBytes2 x.baseline
        ++ [flagByte x.leaky, flagByte x.lock, flagByte x.commitPending, x.calStatus.code, calCauseCode x.calCause,
            (match x.calMethod with | none => 0xFF | some m => m.code), x.call.code, x.hook.state.code]⟩))
    ∧ (∀ active : Bool,
        let t := if active then (s.line l).active else (s.line l).staged
        exec (.partyRead tag [lineByte l, flagByte active]) s = .next (s.replied ⟨0x91, tag,
          [0x00, flagByte (s.line l).commitPending] ++ (slots.flatMap fun i => partyEntryBytes (t.entries.get i))
            ++ [toByte t.alarmChannel.val, patternByte t.alarmPattern]⟩))
    ∧ exec (.callRecordRead tag [lineByte l]) s = .next (s.replied ⟨0x9C, tag,
        0x00 :: (match (s.line l).completed with
                 | none => 0 :: List.replicate 28 0
                 | some r => 1 :: recordBytes r r.digits)
          ++ (match (s.line l).record with
              | none => 0 :: List.replicate 28 0
              | some r => 1 :: recordBytes r (s.line l).digits)⟩)
    ∧ exec (.numberingRead tag []) s = .next (s.replied ⟨0x9A, tag,
        0x00 :: (lineNos.flatMap fun m => toBytes2 (s.numbering.get m))⟩)

/-! ### Device, timebase and arbiter commands -/

/-- SOFT_RESET (R190 with R21, R30, R61, R96, R119, R147, R161, R174): what it changes and what it keeps. That the works
of a step event which were put by stay due is the model's choice (log 25). -/
def Obligations.SoftResetOfEveryBlock : Prop :=
  ∀ (tag : Byte) (s : State), s.ready →
    ∃ t : State, exec (.softReset tag []) s = .next (t.replied ⟨0x82, tag, [0x00]⟩)
      ∧ (∀ l, (t.line l).hook = ⟨.onhook, 0, 0, 0, 0⟩ ∧ (t.line l).test = ⟨false, 0, 0, 0⟩ ∧ (t.line l).track = ⟨0, 0⟩
          ∧ (t.line l).call = (if (s.line l).fitted && (s.line l).enabled then .idle else .disabled)
          ∧ (t.line l).saved = none ∧ (t.line l).timer = none ∧ (t.line l).dialBegun = false
          ∧ (t.line l).digits = ⟨[], false⟩ ∧ (t.line l).out = ⟨[], false, false⟩ ∧ (t.line l).alarmCount = 0
          ∧ (t.line l).alarmPending = none ∧ (t.line l).record = none ∧ (t.line l).completed = none
          ∧ (t.line l).play = none ∧ (t.line l).run = none ∧ (t.line l).commitPending = false
          ∧ ((s.line l).run = none → (t.line l).calStatus = (s.line l).calStatus ∧ (t.line l).calCause = (s.line l).calCause)
          ∧ ((s.line l).run ≠ none → (t.line l).calStatus = .failed ∧ (t.line l).calCause = some .reset)
          ∧ t.line l = { s.line l with
              hook := (t.line l).hook, test := (t.line l).test, track := (t.line l).track, call := (t.line l).call
              saved := none, timer := none, dialBegun := false, digits := (t.line l).digits, out := (t.line l).out
              alarmCount := 0, alarmPending := none, record := none, completed := none, manner := none
              play := none, run := none, commitPending := false
              calStatus := (t.line l).calStatus, calCause := (t.line l).calCause })
      ∧ t.edit = ⟨none, []⟩
      ∧ (∀ l, t.row l = none) ∧ (∀ c cs, (t.arb.profile.get c).get cs = 0)
      ∧ t.arb = { s.arb with
          rows := t.arb.rows, profile := t.arb.profile, placedOrder := [], waitQueue := [], supply := .standby
          standbyCount := s.arb.standbyFrames, warmUpCount := 0 }
      ∧ (∀ e, t.link.pendingSets.get e = 0)
      ∧ t.link = { s.link with pendingSets := t.link.pendingSets, faults := 0, lastServed := 16 }
      ∧ t.numbering = s.numbering ∧ t.cadence = s.cadence ∧ t.dialPlan = s.dialPlan ∧ t.settings = s.settings
      ∧ t.timebase = s.timebase ∧ t.due = s.due ∧ t.pending = s.pending

/-- REPORT_MASK (R188): the mask by its form, the disabled kinds out of every pending set, the new mask in the reply. -/
def Obligations.ReportMaskRemovesDisabledKinds : Prop :=
  ∀ (tag : Byte) (v : BitVec 14) (s : State), s.ready →
    ∀ (form : WriteForm) (code : Byte) (new : BitVec 14),
      ((form = .replace ∧ code = 0 ∧ new = v) ∨ (form = .set ∧ code = 1 ∧ new = s.link.mask ||| v)
        ∨ (form = .clear ∧ code = 2 ∧ new = s.link.mask &&& ~~~v)) →
      ∃ t : State, exec (.reportMask tag (code :: toBytes2 v.toNat)) s =
            .next (t.replied ⟨0x83, tag, 0x00 :: toBytes2 new.toNat⟩)
        ∧ t.link.mask = new ∧ (∀ e, t.link.pendingSets.get e = s.link.pendingSets.get e &&& new)
        ∧ t = { s with link := { s.link with mask := new, pendingSets := t.link.pendingSets } }

/-- TIMERS_SET, SUPPLY_SET, SUPPLY_TIMING and ARBITER_SET (R68, R121, R142, R123): the settings they carry replace the
present ones, and nothing else changes. -/
def Obligations.SettingsAreReplacedTogether : Prop :=
  ∀ (tag : Byte) (s : State), s.ready →
    (∀ v : Settings, 1 ≤ v.firstDigit → v.firstDigit ≤ 60 → 1 ≤ v.interdigit → v.interdigit ≤ 30 →
        1 ≤ v.exchangeWait → v.exchangeWait ≤ 30 → 5 ≤ v.hangupWait → v.hangupWait ≤ 120 →
        10 ≤ v.revertNoAnswer → v.revertNoAnswer ≤ 600 → 10 ≤ v.termNoAnswer → v.termNoAnswer ≤ 600 →
        5 ≤ v.reorder → v.reorder ≤ 120 → 10 ≤ v.idThreshold → v.idThreshold ≤ 255 →
        40 ≤ v.answerCurrent → v.answerCurrent ≤ 600 →
        exec (.timersSet tag
          (toBytes2 v.firstDigit ++ toBytes2 v.interdigit ++ toBytes2 v.exchangeWait ++ toBytes2 v.hangupWait
            ++ toBytes2 v.revertNoAnswer ++ toBytes2 v.termNoAnswer ++ toBytes2 v.reorder ++ [toByte v.idThreshold]
            ++ toBytes2 v.answerCurrent)) s
          = .next ({ s with settings := v }.replied ⟨0x84, tag, [0x00]⟩))
    ∧ (∀ (c : Channel) (w0 w1 w2 w3 : Byte), ∃ t : State,
        exec (.supplySet tag [toByte c.val, w0, w1, w2, w3]) s = .next (t.replied ⟨0x86, tag, [0x00]⟩)
          ∧ (t.arb.caps.get c).get 0 = w0.toNat ∧ (t.arb.caps.get c).get 1 = w1.toNat
          ∧ (t.arb.caps.get c).get 2 = w2.toNat ∧ (t.arb.caps.get c).get 3 = w3.toNat
          ∧ (∀ d, d ≠ c → t.arb.caps.get d = s.arb.caps.get d)
          ∧ t = { s with arb := { s.arb with caps := t.arb.caps } })
    ∧ (∀ (f w rf rv wf wv : Nat), 1 ≤ f → f ≤ 255 → w ≤ 15 → rf ≤ 2 → rv ≤ 7 → wf ≤ 2 → wv ≤ 3 →
        exec (.supplyTiming tag [toByte f, toByte w, toByte rf, toByte rv, toByte wf, toByte wv]) s
          = .next ({ s with arb := { s.arb with
              standbyFrames := f
              warmUpFrames := w
              reloadMask := (match rf with
                | 0 => BitVec.ofNat 3 rv
                | 1 => s.arb.reloadMask ||| BitVec.ofNat 3 rv
                | _ => s.arb.reloadMask &&& ~~~BitVec.ofNat 3 rv)
              wakeMask := (match wf with
                | 0 => BitVec.ofNat 3 wv
                | 1 => s.arb.wakeMask ||| BitVec.ofNat 3 wv
                | _ => s.arb.wakeMask &&& ~~~BitVec.ofNat 3 wv) } }.replied ⟨0x87, tag, [0x00]⟩))
    ∧ (∀ (b d w u a : Nat), b ≤ 119 → 1 ≤ d → 120 % d = 0 → 1 ≤ w → w ≤ 255 → 10 ≤ u → u ≤ 255 → 1 ≤ a → a ≤ 40 →
        exec (.arbiterSet tag [toByte b, toByte d, toByte w, toByte u, toByte a]) s
          = .next ({ s with arb := { s.arb with
              phaseBase := b, stride := d, waitThreshold := w, unitCurrent := u, assumedLoad := a } }.replied
                ⟨0x88, tag, [0x00]⟩))

/-- TIMEBASE_SET (R32): the role named again changes nothing; a change of role sets or ends the follower state, clears
the latch and the remembered pulse (on leaving FOLLOWER by the model's choice, log 28), and marks SYNC; position, parity,
scan count and stamp carry on. -/
def Obligations.RoleChangesBySet : Prop :=
  ∀ (tag : Byte) (r : Role) (s : State), s.ready →
    (s.timebase.role = r → exec (.timebaseSet tag [r.code]) s = .next (s.replied ⟨0x85, tag, [0x00]⟩))
    ∧ (s.timebase.role ≠ r → ∃ t : State, exec (.timebaseSet tag [r.code]) s = .next (t.replied ⟨0x85, tag, [0x00]⟩)
        ∧ t.timebase.role = r ∧ (r = .follower → t.timebase.follower = some .acquiring)
        ∧ (r ≠ .follower → t.timebase.follower = none) ∧ t.timebase.latch = false ∧ t.timebase.remembered = none
        ∧ t.timebase.position = s.timebase.position ∧ t.timebase.parity = s.timebase.parity
        ∧ t.timebase.scanCount = s.timebase.scanCount ∧ t.timebase.stamp = s.timebase.stamp
        ∧ (kindIn .sync s.link.mask = true →
            (t.link.slots.get 16).get 11
              = some ([r.code, followerCode t.timebase.follower] ++ stampBytes s.timebase.stamp)
            ∧ kindIn .sync (t.link.pendingSets.get 16) = true)
        ∧ t = { s with timebase := t.timebase, link := t.link } ∧ t.link.core = s.link.core)

/-! ### Line plan and numbering commands -/

/-- PARTY_WRITE and ALARM_IDENTITY (R12, R13): the staged entry or alarm identity is written; a locked line and a line
with a commit pending refuse. An absent entry keeps its other fields. -/
def Obligations.StagedTableEdits : Prop :=
  ∀ (tag : Byte) (l : LineNo) (i : Slot) (e : PartyEntry) (c : Channel) (a : Option PatternNo) (s : State),
    s.ready → a ≠ some 0 →
    let write := Instr.partyWrite tag (lineByte l :: slotByte (some i) :: partyEntryBytes e)
    let alarm := Instr.alarmIdentity tag [lineByte l, toByte c.val, patternByte a]
    ((s.line l).lock = true → exec write s = .next (s.replied ⟨0x90, tag, [0x06]⟩)
        ∧ exec alarm s = .next (s.replied ⟨0x92, tag, [0x06]⟩))
    ∧ ((s.line l).lock = false → (s.line l).commitPending = true →
        exec write s = .next (s.replied ⟨0x90, tag, [0x07]⟩) ∧ exec alarm s = .next (s.replied ⟨0x92, tag, [0x07]⟩))
    ∧ ((s.line l).lock = false → (s.line l).commitPending = false →
        (∃ t : PartyTable, exec write s = .next ((s.setLine l { s.line l with staged := t }).replied ⟨0x90, tag, [0x00]⟩)
          ∧ (e.present = true → t.entries.get i = e)
          ∧ (e.present = false → t.entries.get i = { (s.line l).staged.entries.get i with present := false })
          ∧ (∀ j, j ≠ i → t.entries.get j = (s.line l).staged.entries.get j)
          ∧ t.alarmChannel = (s.line l).staged.alarmChannel ∧ t.alarmPattern = (s.line l).staged.alarmPattern)
        ∧ exec alarm s = .next ((s.setLine l { s.line l with
            staged := { (s.line l).staged with alarmChannel := c, alarmPattern := a } }).replied ⟨0x92, tag, [0x00]⟩))

/-- PLAN_COMMIT (R15): the four checks in order, and the flag. PLAN_DISCARD (R17): the staged table is the active one
again. -/
def Obligations.PlanCommitAndDiscard : Prop :=
  ∀ (tag : Byte) (l : LineNo) (s : State), s.ready →
    let x := s.line l
    let same := fun i j : Slot => i ≠ j ∧ (x.staged.entries.get i).present = true
      ∧ (x.staged.entries.get j).present = true
      ∧ (x.staged.entries.get i).side = (x.staged.entries.get j).side
      ∧ (x.staged.entries.get i).channel = (x.staged.entries.get j).channel
      ∧ (x.staged.entries.get i).pattern = (x.staged.entries.get j).pattern
    let lacks := fun p : PatternNo => s.cadence.get p = none
      ∧ ((∃ i, (x.staged.entries.get i).present = true ∧ (x.staged.entries.get i).pattern = p)
          ∨ x.staged.alarmPattern = some p)
    let commit := exec (.planCommit tag [lineByte l]) s
    (x.lock = true → commit = .next (s.replied ⟨0x93, tag, [0x06]⟩))
    ∧ (x.lock = false → x.commitPending = true → commit = .next (s.replied ⟨0x93, tag, [0x07]⟩))
    ∧ (x.lock = false → x.commitPending = false →
        (∀ i j, same i j → (∀ k m, same k m → i ≤ k) → (∀ m, same i m → j ≤ m) →
          commit = .next (s.replied ⟨0x93, tag, [0x0F, slotByte (some i), slotByte (some j)]⟩))
        ∧ ((∀ i j, ¬same i j) → ∀ p, lacks p → (∀ q, lacks q → p ≤ q) →
          commit = .next (s.replied ⟨0x93, tag, [0x10, toByte p.val]⟩))
        ∧ ((∀ i j, ¬same i j) → (∀ p, ¬lacks p) →
          commit = .next ((s.setLine l { x with commitPending := true }).replied ⟨0x93, tag, [0x00]⟩)))
    ∧ (x.lock = true → exec (.planDiscard tag [lineByte l]) s = .next (s.replied ⟨0x94, tag, [0x06]⟩))
    ∧ (x.lock = false → exec (.planDiscard tag [lineByte l]) s =
        .next ((s.setLine l { x with staged := x.active, commitPending := false }).replied ⟨0x94, tag, [0x00]⟩))

/-- LINE_LEVELS and LINE_LOADS (R5, R6). -/
def Obligations.LevelsAndLoadsAreReplaced : Prop :=
  ∀ (tag : Byte) (l : LineNo) (s : State), s.ready →
    (∀ m k t : Nat, 20 ≤ m → m ≤ 300 → 5 ≤ k → k ≤ 250 → 20 ≤ t → t ≤ 600 →
      let levels := exec (.lineLevels tag (lineByte l :: (toBytes2 m ++ toBytes2 k ++ toBytes2 t))) s
      ((s.line l).call = .calibrating → levels = .next (s.replied ⟨0x96, tag, [0x01, 15]⟩))
      ∧ ((s.line l).call ≠ .calibrating → levels =
          .next ((s.setLine l { s.line l with margin := m, leakLimit := k, tripThreshold := t }).replied
            ⟨0x96, tag, [0x00]⟩)))
    ∧ (∀ a b c d : Nat, a ≤ 40 → b ≤ 40 → c ≤ 40 → d ≤ 40 →
      let loads := exec (.lineLoads tag [lineByte l, toByte a, toByte b, toByte c, toByte d]) s
      (((s.line l).call = .calibrating ∨ s.row l ≠ none) →
        loads = .next (s.replied ⟨0x97, tag, [0x01, (s.line l).call.code]⟩))
      ∧ ((s.line l).call ≠ .calibrating → s.row l = none → loads =
          .next ((s.setLine l { s.line l with loads := ⟨[a, b, c, d], rfl⟩ }).replied ⟨0x97, tag, [0x00]⟩)))

/-- LINE_LOCK (R7): each line of the set judged on its own, ascending. -/
def Obligations.LockTakesLinesWithoutCommit : Prop :=
  ∀ (tag : Byte) (w : BitVec 16) (s : State), s.ready →
    ∃ t : State, exec (.lineLock tag (toBytes2 w.toNat)) s = .next (t.replied ⟨0x98, tag,
        0x00 :: toBytes2 w.toNat ++ ((lineNos.filter fun l => w.getLsbD l.val).map fun l =>
          if (s.line l).commitPending then 0x07 else 0x00)⟩)
      ∧ (∀ l, w.getLsbD l.val = true → (s.line l).commitPending = false → t.line l = { s.line l with lock := true })
      ∧ (∀ l, (w.getLsbD l.val = false ∨ (s.line l).commitPending = true) → t.line l = s.line l)
      ∧ t = { s with lines := t.lines }

/-- LINE_OPTIONS (R4, with R90 and R91 for a change of ENABLED): the new option set of each line of the set, its checks
in order, its outcome, and the consequences. That the hook machine of an enabled line stands ONHOOK already in the event
of the command, and not only at the next scan, is the model's reading (log 10), and so is it that the tracking window of a
line that leaves IDLE ends in that event (R56; log 13). -/
def Obligations.OptionsTakenLineByLine : Prop :=
  ∀ (tag : Byte) (w : BitVec 16) (code : Fin 3) (v : BitVec 4) (s : State), s.ready →
    let new := fun l => match code with
      | 0 => v
      | 1 => (s.line l).opts ||| v
      | _ => (s.line l).opts &&& ~~~v
    let outcome := fun l =>
      if (s.line l).lock ∧ new l &&& 0b1110 ≠ (s.line l).opts &&& 0b1110 then Status.locked
      else if (new l).getLsbD 1 ≠ (s.line l).opts.getLsbD 1 ∧ (s.line l).call ≠ .idle ∧ (s.line l).call ≠ .disabled then
        .busy
      else if (new l).getLsbD 0 ∧ (s.line l).fitted = false then .notFitted
      else .ok
    ∃ t : State, exec (.lineOptions tag (toBytes2 w.toNat ++ [toByte code.val, toByte v.toNat])) s = .next (t.replied ⟨0x95, tag,
        0x00 :: toBytes2 w.toNat ++ ((lineNos.filter fun l => w.getLsbD l.val).map fun l => (outcome l).code)⟩)
      ∧ (∀ l, (w.getLsbD l.val = false ∨ outcome l ≠ .ok) → t.line l = s.line l ∧ t.row l = s.row l)
      ∧ (∀ l, w.getLsbD l.val = true → outcome l = .ok → (t.line l).opts = new l
          ∧ ((new l).getLsbD 0 = (s.line l).opts.getLsbD 0 → t.line l = { s.line l with opts := new l } ∧ t.row l = s.row l)
          ∧ ((new l).getLsbD 0 = true → (s.line l).opts.getLsbD 0 = false → (s.line l).call = .disabled →
              (t.line l).call = .idle ∧ (t.line l).hook = ⟨.onhook, 0, 0, 0, 0⟩ ∧ t.row l = s.row l ∧ s.tells t l none)
          ∧ ((new l).getLsbD 0 = false → (s.line l).opts.getLsbD 0 = true →
              (t.line l).call = .disabled ∧ t.row l = none ∧ (t.line l).test = ⟨false, 0, 0, 0⟩ ∧ (t.line l).run = none
                ∧ (t.line l).record = none ∧ (t.line l).alarmPending = none ∧ (t.line l).timer = none
                ∧ (t.line l).saved = none ∧ (t.line l).digits = ⟨[], false⟩ ∧ (t.line l).out = ⟨[], false, false⟩
                ∧ (t.line l).play = (if s.row l = none then (s.line l).play else none)
                ∧ (t.line l).track = (if (s.line l).call = .idle then ⟨0, 0⟩ else (s.line l).track)
                ∧ (∀ r, (s.line l).run = some r → s.runFailed t l r .canceled)
                ∧ (∀ rec, (s.line l).record = some rec → s.ends t l rec (s.line l).digits .disabled)
                ∧ ((s.line l).call ≠ .disabled → s.tells t l ((s.line l).record.map fun _ => .disabled))))
      ∧ (∀ l, (t.line l).fitted = (s.line l).fitted ∧ (t.line l).margin = (s.line l).margin
          ∧ (t.line l).leakLimit = (s.line l).leakLimit ∧ (t.line l).tripThreshold = (s.line l).tripThreshold
          ∧ (t.line l).loads = (s.line l).loads ∧ (t.line l).baseline = (s.line l).baseline
          ∧ (t.line l).lock = (s.line l).lock ∧ (t.line l).commitPending = (s.line l).commitPending
          ∧ (t.line l).staged = (s.line l).staged ∧ (t.line l).active = (s.line l).active)
      ∧ s.SameTables t ∧ t.arb.given = s.arb.given ∧ t.link.core = s.link.core

/-- NUMBERING_SET (R19): the two checks in order, and the 16 boundaries replaced together. Suffix decoding (R18). -/
def Obligations.NumberingReplacedAndDecoded : Prop :=
  (∀ (tag : Byte) (b : Tab 16 Nat) (s : State), s.ready → (∀ l, b.get l ≤ 65535) →
    let set := exec (.numberingSet tag (lineNos.flatMap fun l => toBytes2 (b.get l))) s
    let bad := (∃ l, 1000 < b.get l) ∨ ∃ l m : LineNo, m.val = l.val + 1 ∧ b.get m < b.get l
    let moves := ∃ l : LineNo, (s.line l).lock = true
      ∧ (b.get l ≠ s.numbering.get l ∨ ∃ m : LineNo, l.val = m.val + 1 ∧ b.get m ≠ s.numbering.get m)
    (bad → set = .next (s.replied ⟨0x99, tag, [0x11]⟩))
    ∧ (¬bad → moves → set = .next (s.replied ⟨0x99, tag, [0x06]⟩))
    ∧ (¬bad → ¬moves → set = .next ({ s with numbering := b }.replied ⟨0x99, tag, [0x00]⟩)))
  ∧ ∀ (x : Nat) (s : State), s.numberingLaw →
    let B := fun l : LineNo => s.numbering.get l
    let below := fun l : LineNo => lowerOf s.numbering l
    (B 15 ≤ x → s.decodeSuffix x = none)
    ∧ ∀ l, x < B l → (∀ m, m < l → B m ≤ x) → below l ≤ x
      ∧ (below l + 8 ≤ x → s.decodeSuffix x = none)
      ∧ ∀ i : Slot, x = below l + i.val →
        s.decodeSuffix x = if ((s.line l).active.entries.get i).present then some (l, i) else none

/-! ### Cadence and dial plan commands -/

/-- CADENCE_OPEN and CADENCE_PUT (R24, R25): the buffer bound and emptied; segments appended one at a time until the
cursor stands at 12 or the sum would pass 60. -/
def Obligations.EditBufferTakesSegments : Prop :=
  ∀ (tag : Byte) (s : State), s.ready →
    (∀ p : PatternNo, p ≠ 0 → exec (.cadenceOpen tag [toByte p.val]) s =
        .next ({ s with edit := ⟨some p, []⟩ }.replied ⟨0xA0, tag, [0x00]⟩))
    ∧ ∀ gs : List Segment, gs.length ≤ 12 → (∀ g ∈ gs, 1 ≤ g.dur ∧ g.dur ≤ 60) →
      let put := exec (.cadencePut tag (gs.flatMap segmentBytes)) s
      (s.edit.bound = none → put = .next (s.replied ⟨0xA1, tag, [0x0D]⟩))
      ∧ ∀ p, s.edit.bound = some p → ∀ taken rest, gs = taken ++ rest →
        (∀ front g, front ++ [g] <+: taken →
          s.edit.segs.length + front.length < 12 ∧ durSum (s.edit.segs ++ front) + g.dur ≤ 60) →
        ∀ status : Byte,
          ((rest = [] ∧ status = 0x00)
            ∨ (rest ≠ [] ∧ 12 ≤ s.edit.segs.length + taken.length ∧ status = 0x0B)
            ∨ (∃ g tail, rest = g :: tail ∧ s.edit.segs.length + taken.length < 12
                ∧ 60 < durSum (s.edit.segs ++ taken) + g.dur ∧ status = 0x0C)) →
          put = .next ({ s with edit := ⟨some p, s.edit.segs ++ taken⟩ }.replied ⟨0xA1, tag,
            [status, toByte taken.length, toByte (s.edit.segs.length + taken.length),
             toByte (durSum (s.edit.segs ++ taken))]⟩)

/-- CADENCE_STORE and CADENCE_CLEAR (R26, R27, R28): the checks in order, the slot, and the buffer. -/
def Obligations.PatternsInUseAreKept : Prop :=
  ∀ (tag : Byte) (s : State), s.ready →
    let rings := fun (p : PatternNo) (l : LineNo) => ∃ e, s.row l = some e
      ∧ (e.voiceA.pattern = p ∨ ∃ b, e.voiceB = some b ∧ b.pattern = p)
    let tables := fun (p : PatternNo) (t : PartyTable) =>
      (∃ i, (t.entries.get i).present = true ∧ (t.entries.get i).pattern = p) ∨ t.alarmPattern = some p
    let holds := fun (p : PatternNo) (l : LineNo) => tables p (s.line l).active
      ∨ ((s.line l).commitPending = true ∧ tables p (s.line l).staged) ∨ rings p l
    let store := exec (.cadenceStore tag []) s
    (s.edit.bound = none → store = .next (s.replied ⟨0xA2, tag, [0x0D]⟩))
    ∧ (∀ p, s.edit.bound = some p →
        (durSum s.edit.segs < 60 → store = .next (s.replied ⟨0xA2, tag, [0x0A, toByte (durSum s.edit.segs)]⟩))
        ∧ (60 ≤ durSum s.edit.segs →
          ((∀ g ∈ s.edit.segs, g.on = false) → store = .next (s.replied ⟨0xA2, tag, [0x10]⟩))
          ∧ (∀ g ∈ s.edit.segs, g.on = true →
              (∀ l, rings p l → (∀ m, rings p m → l ≤ m) → store = .next (s.replied ⟨0xA2, tag, [0x09, lineByte l]⟩))
              ∧ ((∀ l, ¬rings p l) → store =
                  .next ({ s with cadence := s.cadence.set p (some s.edit.segs), edit := ⟨none, []⟩ }.replied
                    ⟨0xA2, tag, [0x00]⟩)))))
    ∧ ∀ p : PatternNo, p ≠ 0 →
        (∀ l, holds p l → (∀ m, holds p m → l ≤ m) →
          exec (.cadenceClear tag [toByte p.val]) s = .next (s.replied ⟨0xA4, tag, [0x09, lineByte l]⟩))
        ∧ ((∀ l, ¬holds p l) → exec (.cadenceClear tag [toByte p.val]) s =
            .next ({ s with cadence := s.cadence.set p none }.replied ⟨0xA4, tag, [0x00]⟩))

/-- DIALPLAN_WRITE (R98, with the layout of R198): the entry at the index is replaced whole; prefix places beyond the
prefix length are disregarded. -/
def Obligations.DialPlanEntryReplaced : Prop :=
  ∀ (tag : Byte) (i : Fin 12) (e : DialEntry) (pad : List Nat) (s : State), s.ready →
    e.pre.length + pad.length = 4 → (∀ d ∈ pad, d ≤ 15) → e.tail ≤ 4 →
    1 ≤ e.pre.length + e.tail → e.pre.length + e.tail ≤ 8 →
    (e.action = .revertParty → e.tail = 1) → (e.action = .revertSuffix → e.tail = 3) →
      exec (.dialplanWrite tag (toByte i.val ::
          toByte ((if e.enabled then 128 else 0) + e.action.code * 16 + e.pre.length) :: toByte e.tail ::
            packNibbles ((e.pre.map fun (d : Digit) => d.val) ++ pad))) s
        = .next ({ s with dialPlan := s.dialPlan.set i e }.replied ⟨0xA5, tag, [0x00]⟩)

/-! ### Call, alarm, test and calibration commands -/

/-- RING_PARTY (R77, with R18 for a suffix): the checks in order, and an accepted command. The line leaves IDLE, which ends
its tracking window (R56; in the same event by the model's reading, log 13). That the overwritten flag of the open record
is no is the model's choice (log 34). -/
def Obligations.RingPartyOpensATerminatingCall : Prop :=
  ∀ (tag : Byte) (n : Nat) (s : State), s.ready → (n = 0 ∨ (10 ≤ n ∧ n ≤ 600)) →
    (∀ x : Nat, x ≤ 999 → s.decodeSuffix x = none →
      exec (.ringParty tag (1 :: (toBytes2 x ++ toBytes2 n))) s = .next (s.replied ⟨0xB0, tag, [0x08]⟩))
    ∧ ∀ (l : LineNo) (i : Slot) (p : List Byte),
      (p = [0, lineByte l, slotByte (some i)] ++ toBytes2 n
        ∨ ∃ x, x ≤ 999 ∧ s.decodeSuffix x = some (l, i) ∧ p = 1 :: (toBytes2 x ++ toBytes2 n)) →
      let x := s.line l
      let e := x.active.entries.get i
      let ring := exec (.ringParty tag p) s
      (x.fitted = false → ring = .next (s.replied ⟨0xB0, tag, [0x12]⟩))
      ∧ (x.fitted = true → x.enabled = false → ring = .next (s.replied ⟨0xB0, tag, [0x13]⟩))
      ∧ (x.fitted = true → x.enabled = true → x.call ≠ .idle →
          ring = .next (s.replied ⟨0xB0, tag, [0x01, x.call.code]⟩))
      ∧ (x.fitted = true → x.enabled = true → x.call = .idle → e.present = false →
          ring = .next (s.replied ⟨0xB0, tag, [0x08]⟩))
      ∧ (x.fitted = true → x.enabled = true → x.call = .idle → e.present = true → x.loads.get e.channel = 0 →
          ring = .next (s.replied ⟨0xB0, tag, [0x0E]⟩))
      ∧ (x.fitted = true → x.enabled = true → x.call = .idle → e.present = true → x.loads.get e.channel ≠ 0 →
          ∃ t : State, ring = .next (t.replied ⟨0xB0, tag, [0x00, lineByte l, slotByte (some i)]⟩)
            ∧ s.OnlyLine l t ∧ (t.line l).call = .termRing ∧ s.tells t l none
            ∧ (t.line l).record = some ⟨.terminated, none, some i, none, ⟨[], false⟩, s.stamp, none, 0, none, 0, false⟩
            ∧ (t.line l).digits = ⟨[], false⟩ ∧ (t.line l).out = ⟨[], false, false⟩ ∧ (t.line l).track = ⟨0, 0⟩
            ∧ (t.line l).timer = some (if n = 0 then s.settings.termNoAnswer * 10 else n * 10)
            ∧ ∃ entry, t.row l = some entry ∧ entry.cls = .ordinary ∧ entry.reqType = .terminating
                ∧ entry.voiceA = ⟨e.side, e.channel, e.pattern, x.loads.get e.channel⟩ ∧ entry.voiceB = none
                ∧ entry.waited = 0 ∧ entry.delayed = false)

/-- RING_CANCEL, REJECT, DISCONNECT and LINE_RELEASE (R74, R76, R79, R80, R87, R93): out of their states they are
refused with the call state; in them they end the record with their cause, and a line that holds OFFHOOK at DISCONNECT
or LINE_RELEASE gets reorder tone. -/
def Obligations.CallsEndedByTheHost : Prop :=
  ∀ (tag : Byte) (l : LineNo) (s : State), s.ready →
    let x := s.line l
    let released := if x.hook.state = .offhook ∨ x.hook.state = .brk then CallState.reorder else .idle
    (x.call ≠ .termRing →
      exec (.ringCancel tag [lineByte l]) s = .next (s.replied ⟨0xB1, tag, [0x02, x.call.code]⟩))
    ∧ (x.call = .termRing → ∃ t : State,
        exec (.ringCancel tag [lineByte l]) s = .next (t.replied ⟨0xB1, tag, [0x00, 1]⟩)
          ∧ s.OnlyLine l t ∧ t.row l = none ∧ (t.line l).call = .idle ∧ (t.line l).timer = none
          ∧ ∀ r, x.record = some r → s.ends t l r x.digits .canceled ∧ s.tells t l (some .canceled))
    ∧ (x.call ≠ .exchWait →
      exec (.reject tag [lineByte l]) s = .next (s.replied ⟨0xB3, tag, [0x02, x.call.code]⟩))
    ∧ (x.call = .exchWait → ∃ t : State,
        exec (.reject tag [lineByte l]) s = .next (t.replied ⟨0xB3, tag, [0x00, 12]⟩)
          ∧ s.OnlyLine l t ∧ t.row l = s.row l ∧ (t.line l).call = .reorder
          ∧ (t.line l).timer = some (s.settings.reorder * 10)
          ∧ ∀ r, x.record = some r → s.ends t l r x.digits .rejected ∧ s.tells t l (some .rejected))
    ∧ (x.call ≠ .exchange →
      exec (.disconnect tag [lineByte l]) s = .next (s.replied ⟨0xB4, tag, [0x02, x.call.code]⟩))
    ∧ (x.call = .exchange → ∃ t : State,
        exec (.disconnect tag [lineByte l]) s = .next (t.replied ⟨0xB4, tag, [0x00, released.code]⟩)
          ∧ s.OnlyLine l t ∧ t.row l = s.row l ∧ (t.line l).call = released
          ∧ ∀ r, x.record = some r → s.ends t l r x.digits .released ∧ s.tells t l (some .released))
    ∧ ((x.call = .disabled ∨ x.call = .test ∨ x.call = .calibrating) →
      exec (.lineRelease tag [lineByte l]) s = .next (s.replied ⟨0xB5, tag, [0x02, x.call.code]⟩))
    ∧ (x.call ≠ .disabled → x.call ≠ .test → x.call ≠ .calibrating → ∃ t : State,
        exec (.lineRelease tag [lineByte l]) s = .next (t.replied ⟨0xB5, tag, [0x00, released.code]⟩)
          ∧ s.OnlyLine l t ∧ t.row l = none ∧ (t.line l).test = ⟨false, 0, 0, 0⟩ ∧ (t.line l).call = released
          ∧ (t.line l).timer = (if released = .reorder then some (s.settings.reorder * 10) else none)
          ∧ (t.line l).alarmPending = x.alarmPending ∧ (t.line l).hook = x.hook
          ∧ (∀ r, x.record = some r → s.ends t l r x.digits .released)
          ∧ (x.call ≠ released → s.tells t l (x.record.map fun _ => .released)))

/-- CONNECT (R74, R75): EXCHANGE, the answer stamp of an originated record, and DIGITS marked when the list holds
anything. -/
def Obligations.ConnectLeadsToExchange : Prop :=
  ∀ (tag : Byte) (l : LineNo) (s : State), s.ready →
    let x := s.line l
    (x.call ≠ .exchWait → exec (.connect tag [lineByte l]) s = .next (s.replied ⟨0xB2, tag, [0x02, x.call.code]⟩))
    ∧ (x.call = .exchWait → ∃ t : State, exec (.connect tag [lineByte l]) s = .next (t.replied ⟨0xB2, tag, [0x00, 5]⟩)
        ∧ s.OnlyLine l t ∧ t.arb = s.arb ∧ s.tells t l none
        ∧ t.line l = { x with call := .exchange, timer := none, dialBegun := false, record := (t.line l).record }
        ∧ (∀ r, x.record = some r → (t.line l).record
            = some (if r.kind = .originated ∧ r.answer = none then { r with answer := some s.stamp } else r))
        ∧ ((x.out.digits ≠ [] ∨ x.out.overflow = true ∨ x.out.digitError = true) →
            t.marked s.link.mask .digits l
              ([lineByte l, toByte ((if x.out.overflow then 1 else 0) + (if x.out.digitError then 2 else 0))]
                ++ digitList x.out.digits))
        ∧ (x.out = ⟨[], false, false⟩ →
            (t.link.slots.get (State.lineEntry l)).get 2 = (s.link.slots.get (State.lineEntry l)).get 2))

/-- ALARM_RING (R83, with R84 for an alarm that starts) and ALARM_STOP (R86, with R85 and R93 for the end of one): each
line of the set judged on its own, ascending. A line that leaves IDLE has its tracking window ended (R56; in the same event
by the model's reading, log 13). That the overwritten flag of the open record is no is the model's choice (log 34). -/
def Obligations.AlarmsStartAndStopLineByLine : Prop :=
  (∀ (tag : Byte) (w : BitVec 16) (n : Nat) (s : State), s.ready → 1 ≤ n → n ≤ 255 →
    let dead := fun l => (s.line l).active.alarmPattern = none ∨ (s.line l).loads.get (s.line l).active.alarmChannel = 0
    let outcome : LineNo → Byte := fun l =>
      if (s.line l).call = .disabled then 0x13
      else if dead l then 0x16
      else if (s.line l).call = .idle then 0x15
      else 0x14
    ∃ t : State, exec (.alarmRing tag (toBytes2 w.toNat ++ [toByte n])) s = .next (t.replied ⟨0xB6, tag,
        0x00 :: toBytes2 w.toNat ++ (lineNos.filter fun l => w.getLsbD l.val).map outcome⟩)
      ∧ (∀ l, (w.getLsbD l.val = false ∨ outcome l = 0x13 ∨ outcome l = 0x16) →
          t.line l = s.line l ∧ t.row l = s.row l)
      ∧ (∀ l, w.getLsbD l.val = true → outcome l = 0x14 →
          t.line l = { s.line l with alarmPending := some n } ∧ t.row l = s.row l)
      ∧ (∀ l, w.getLsbD l.val = true → outcome l = 0x15 → ∀ p, (s.line l).active.alarmPattern = some p →
          (t.line l).call = .alarmRing ∧ (t.line l).alarmPending = none ∧ (t.line l).alarmCount = n
            ∧ (t.line l).timer = none ∧ (t.line l).track = ⟨0, 0⟩ ∧ s.tells t l none
            ∧ (t.line l).record = some ⟨.alarm, none, none, none, ⟨[], false⟩, s.stamp, none, 0, none, 0, false⟩
            ∧ (t.line l).digits = ⟨[], false⟩ ∧ (t.line l).out = ⟨[], false, false⟩
            ∧ ∃ e, t.row l = some e ∧ e.cls = .alarm ∧ e.reqType = .alarm ∧ e.voiceB = none
                ∧ e.voiceA = ⟨.bridged, (s.line l).active.alarmChannel, p,
                    (s.line l).loads.get (s.line l).active.alarmChannel⟩)
      ∧ s.SameTables t ∧ t.arb.given = s.arb.given ∧ t.link.core = s.link.core)
    ∧ ∀ (tag : Byte) (w : BitVec 16) (s : State), s.ready →
    let outcome : LineNo → Byte := fun l =>
      if (s.line l).call = .alarmRing ∨ (s.line l).alarmPending ≠ none then 0x00 else 0x02
    ∃ t : State, exec (.alarmStop tag (toBytes2 w.toNat)) s = .next (t.replied ⟨0xB7, tag,
        0x00 :: toBytes2 w.toNat ++ (lineNos.filter fun l => w.getLsbD l.val).map outcome⟩)
      ∧ (∀ l, (w.getLsbD l.val = false ∨ outcome l = 0x02) → t.line l = s.line l ∧ t.row l = s.row l)
      ∧ (∀ l, w.getLsbD l.val = true → (s.line l).call ≠ .alarmRing → (s.line l).alarmPending ≠ none →
          t.line l = { s.line l with alarmPending := none } ∧ t.row l = s.row l)
      ∧ (∀ l, w.getLsbD l.val = true → (s.line l).call = .alarmRing →
          (t.line l).call = .idle ∧ (t.line l).alarmPending = none ∧ t.row l = none
            ∧ ∀ r, (s.line l).record = some r →
                s.ends t l r (s.line l).digits .alarmEnd ∧ s.tells t l (some .alarmEnd))
      ∧ s.SameTables t ∧ t.arb.given = s.arb.given ∧ t.link.core = s.link.core

/-- TEST_ACCESS and TEST_RELEASE (R88, R89). That the hook machine stands in its restart state (R51) already in the event
of the release, and not only at the next scan, is the model's reading (log 10). -/
def Obligations.TestAccessSavesTheState : Prop :=
  ∀ (tag : Byte) (l : LineNo) (s : State), s.ready →
    let x := s.line l
    (x.call ≠ .idle → x.call ≠ .lockout →
      exec (.testAccess tag [lineByte l]) s = .next (s.replied ⟨0xB8, tag, [0x02, x.call.code]⟩))
    ∧ ((x.call = .idle ∨ x.call = .lockout) → ∃ t : State,
        exec (.testAccess tag [lineByte l]) s = .next (t.replied ⟨0xB8, tag, [0x00, 14]⟩)
          ∧ s.OnlyLine l t ∧ t.arb = s.arb ∧ s.tells t l none
          ∧ t.line l = { x with
              call := .test, saved := some x.call, track := ⟨0, 0⟩, timer := none, dialBegun := false })
    ∧ (x.call ≠ .test →
      exec (.testRelease tag [lineByte l]) s = .next (s.replied ⟨0xB9, tag, [0x02, x.call.code]⟩))
    ∧ (∀ back, x.call = .test → x.saved = some back → (back = .idle ∨ back = .lockout) → ∃ t : State,
        exec (.testRelease tag [lineByte l]) s = .next (t.replied ⟨0xB9, tag, [0x00, back.code]⟩)
          ∧ s.OnlyLine l t ∧ t.arb = s.arb ∧ s.tells t l none
          ∧ t.line l = { x with
              call := back, saved := none, timer := none, dialBegun := false
              hook := if back = .idle then ⟨.onhook, 0, 0, 0, 0⟩ else ⟨.offhook, 0, 0, 0, 0⟩ })

/-- CALIBRATE and CALIBRATE_CANCEL (R163, R172, R173): the line is judged by its call state; an accepted command opens
a run in LEAK, and ends the tracking window of the line that leaves IDLE (R56; in the same event by the model's reading,
log 13); a cancelled run fails CANCELED, with its report. -/
def Obligations.CalibrationOpensAndCancels : Prop :=
  ∀ (tag : Byte) (l : LineNo) (s : State), s.ready →
    let x := s.line l
    (∀ (mask lo hi hold : Nat) (bounded : Bool) (m : CalMethod),
      1 ≤ mask → mask ≤ 15 → (bounded = true → 20 ≤ lo ∧ lo ≤ hi ∧ hi ≤ 600) →
      (m = .midpoint → hold = 0) → (m = .hold → 20 ≤ hold ∧ hold ≤ 600) →
      let run := exec (.calibrate tag ([lineByte l, m.code, toByte mask, flagByte bounded]
        ++ toBytes2 lo ++ toBytes2 hi ++ toBytes2 hold)) s
      (x.call = .disabled → run = .next (s.replied ⟨0xBA, tag, [0x13]⟩))
      ∧ (x.call ≠ .disabled → x.call ≠ .idle → run = .next (s.replied ⟨0xBA, tag, [0x01, x.call.code]⟩))
      ∧ (x.call = .idle → ∃ (t : State) (r : Run), run = .next (t.replied ⟨0xBA, tag, [0x00, 15]⟩)
          ∧ s.OnlyLine l t ∧ t.arb = s.arb ∧ s.tells t l none
          ∧ t.line l = { x with
              call := .calibrating, timer := none, dialBegun := false, run := some r
              calStatus := .running, calMethod := some m, calCause := none, track := ⟨0, 0⟩ }
          ∧ r.method = m ∧ r.mask = BitVec.ofNat 4 mask ∧ r.bounds = (if bounded then some (lo, hi) else none)
          ∧ r.hold = (if m = .hold then some hold else none) ∧ r.phase = .leak ∧ r.leakScans = 0 ∧ r.leakSum = 0
          ∧ ∀ c, r.meas.get c = none))
    ∧ (x.call ≠ .calibrating →
      exec (.calibrateCancel tag [lineByte l]) s = .next (s.replied ⟨0xBB, tag, [0x02, x.call.code]⟩))
    ∧ (∀ r, x.call = .calibrating → x.run = some r → ∃ t : State,
        exec (.calibrateCancel tag [lineByte l]) s = .next (t.replied ⟨0xBB, tag, [0x00, 1]⟩)
          ∧ s.OnlyLine l t ∧ (t.line l).call = .idle ∧ s.tells t l none ∧ s.runFailed t l r .canceled)

/-! ### Scans

Each statement takes a scan in its time (`State.paced`). A scan before which a step event is owed takes that step event and
is then such a scan (`TimebaseFollowsItsTable`; log 3). -/

/-- The present indication (R2), by a scan in its time (log 3): a scan of a line that is not fitted reads it alone (R41,
R56), and a change from no to yes after the first reading marks LINE_FAULT; a change from yes to no disables the line (R54,
R59, R90), with what is kept. -/
def Obligations.PresentIndicationIsFollowed : Prop :=
  (∀ (l : LineNo) (r : Reading) (s : State), s.paced l → (s.line l).fitted = false →
    ∃ t : State, exec (.scan l r) s = .next t.settleLink
      ∧ t.line l = { s.line l with presentSeen := true, fitted := r.present, track := ⟨0, 0⟩ }
      ∧ (∀ m, m ≠ l → t.line m = s.line m) ∧ s.SameTables t ∧ t.arb = s.arb ∧ t.link.core = s.link.core
      ∧ ((s.line l).presentSeen = true → r.present = true →
          t.marked s.link.mask .lineFault l [lineByte l, 1, 1, flagByte (s.line l).leaky])
      ∧ (((s.line l).presentSeen = false ∨ r.present = false) → t.link = s.link))
  ∧ ∀ (l : LineNo) (r : Reading) (s : State), s.paced l → (s.line l).fitted = true → r.present = false →
    ∃ t : State, exec (.scan l r) s = .next t.settleLink
      ∧ (t.line l).fitted = false ∧ (t.line l).opts = (s.line l).opts &&& 0b1110 ∧ (t.line l).call = .disabled
      ∧ (t.line l).track = ⟨0, 0⟩ ∧ (t.line l).test = ⟨false, 0, 0, 0⟩ ∧ (t.line l).hook = (s.line l).hook
      ∧ (t.line l).timer = none ∧ (t.line l).saved = none ∧ (t.line l).alarmPending = none
      ∧ (t.line l).digits = ⟨[], false⟩ ∧ (t.line l).out = ⟨[], false, false⟩ ∧ t.row l = none
      ∧ ((s.line l).run ≠ none → (t.line l).calStatus = .failed ∧ (t.line l).calCause = some .canceled)
      ∧ (t.line l).run = none
      ∧ (∀ rec, (s.line l).record = some rec → s.ends t l rec (s.line l).digits .disabled)
      ∧ ((s.line l).call ≠ .disabled → s.tells t l ((s.line l).record.map fun _ => .disabled))
      ∧ t.marked s.link.mask .lineFault l [lineByte l, 0, 0, flagByte (s.line l).leaky]
      ∧ (t.line l).staged = (s.line l).staged ∧ (t.line l).active = (s.line l).active
      ∧ (t.line l).margin = (s.line l).margin ∧ (t.line l).leakLimit = (s.line l).leakLimit
      ∧ (t.line l).tripThreshold = (s.line l).tripThreshold ∧ (t.line l).loads = (s.line l).loads
      ∧ (t.line l).baseline = (s.line l).baseline ∧ (t.line l).leaky = (s.line l).leaky
      ∧ (t.line l).lock = (s.line l).lock ∧ (t.line l).commitPending = (s.line l).commitPending
      ∧ (∀ m, m ≠ l → t.line m = s.line m ∧ t.row m = s.row m)
      ∧ s.SameTables t ∧ t.arb.given = s.arb.given ∧ t.link.core = s.link.core

/-- The hook machine's table (R44 to R48): the state, the counts, and what is handed on, for every scan. A scan in its time
(log 3) that reaches the machine moves it by the off-hook test and LEAKY (R41, R42); one that hands nothing on changes no call state;
a pulse notice begins dialling in DIAL (R66) and a flash marks FLASH in EXCHANGE (R76), with nothing else changed; a
suspended machine is held (R50). -/
def Obligations.HookMachineFollowsItsTable : Prop :=
  (∀ (h : Hook) (n : Nat),
    (h.state = .onhook → h.scan false n = (h, []))
    ∧ (h.state = .onhook → h.scan true n = ({ h with state := .qualify, qualify := 1 }, []))
    ∧ (h.state = .qualify → h.scan false n = ({ h with state := .onhook, qualify := 0 }, []))
    ∧ (h.state = .qualify → h.qualify + 1 < n → h.scan true n = ({ h with qualify := h.qualify + 1 }, []))
    ∧ (h.state = .qualify → n ≤ h.qualify + 1 →
        h.scan true n = ({ h with state := .offhook, qualify := 0, make := 0, pulse := 0 }, [.offHook]))
    ∧ (h.state = .offhook → h.make < 29 →
        h.scan true n = (⟨.offhook, 0, 0, h.make + 1, h.pulse⟩, []))
    ∧ (h.state = .offhook → h.make = 29 → h.pulse = 0 → h.scan true n = (⟨.offhook, 0, 0, 30, 0⟩, []))
    ∧ (h.state = .offhook → h.make = 29 → 1 ≤ h.pulse →
        h.scan true n = (⟨.offhook, 0, 0, 30, 0⟩, [digitOf h.pulse]))
    ∧ (h.state = .offhook → h.make = 30 → h.scan true n = (h, []))
    ∧ (h.state = .offhook → h.scan false n = ({ h with state := .brk, brk := 1 }, []))
    ∧ (h.state = .brk → h.brk < 89 → h.scan false n = ({ h with brk := h.brk + 1 }, []))
    ∧ (h.state = .brk → h.brk = 89 → h.scan false n = (⟨.onhook, 0, 0, 0, 0⟩, [.onHook]))
    ∧ (h.state = .brk → h.brk ≤ 2 → h.make = 30 → h.scan true n = (⟨.offhook, 0, 0, 30, h.pulse⟩, []))
    ∧ (h.state = .brk → h.brk ≤ 2 → h.make + h.brk + 1 < 30 →
        h.scan true n = (⟨.offhook, 0, 0, h.make + h.brk + 1, h.pulse⟩, []))
    ∧ (h.state = .brk → h.brk ≤ 2 → h.make < 30 → 30 ≤ h.make + h.brk + 1 → 1 ≤ h.pulse →
        h.scan true n = (⟨.offhook, 0, 0, 30, 0⟩, [digitOf h.pulse]))
    ∧ (h.state = .brk → h.brk ≤ 2 → h.make < 30 → 30 ≤ h.make + h.brk + 1 → h.pulse = 0 →
        h.scan true n = (⟨.offhook, 0, 0, 30, 0⟩, []))
    ∧ (h.state = .brk → 3 ≤ h.brk → h.brk ≤ 10 →
        h.scan true n = (⟨.offhook, 0, 0, 1, min 11 (h.pulse + 1)⟩, [.pulse]))
    ∧ (h.state = .brk → 11 ≤ h.brk → h.pulse = 0 → h.scan true n = (⟨.offhook, 0, 0, 1, 0⟩, [.flash]))
    ∧ (h.state = .brk → 11 ≤ h.brk → 1 ≤ h.pulse →
        h.scan true n = (⟨.offhook, 0, 0, 1, 0⟩, [digitOf h.pulse, .flash]))
    ∧ (∀ d : Digit, d ≠ 0 → digitOf d.val = .digit d) ∧ digitOf 10 = .digit 0 ∧ (∀ k, 10 < k → digitOf k = .digitError))
  ∧ ∀ (l : LineNo) (r : Reading) (s : State), s.paced l → (s.line l).fitted = true → r.present = true →
    let x := s.line l
    let move := x.hook.scan (decide (x.baseline + x.margin ≤ r.loop)) (if x.leaky then 10 else 5)
    (s.watched l r → ∃ t : State, exec (.scan l r) s = .next t.settleLink ∧ s.OnlyLine l t
        ∧ (t.line l).hook = move.1
        ∧ (move.2 = [] → (t.line l).call = x.call ∧ t.row l = s.row l ∨ x.run ≠ none)
        ∧ (move.2 = [] → x.run = none → (t.line l).record = x.record ∧ (t.line l).timer = x.timer
            ∧ (t.line l).digits = x.digits ∧ (t.line l).out = x.out ∧ (t.line l).dialBegun = x.dialBegun
            ∧ t.arb = s.arb)
        ∧ (move.2 = [.pulse] → x.run = none → t.arb = s.arb ∧ t.link = s.link ∧ t.line l = { x with
            hook := move.1, track := ⟨0, 0⟩, dialBegun := if x.call = .dial then true else x.dialBegun })
        ∧ (move.2 = [.flash] → x.run = none → t.arb = s.arb ∧ t.line l = { x with hook := move.1, track := ⟨0, 0⟩ }
            ∧ (x.call ≠ .exchange → t.link = s.link)
            ∧ (x.call = .exchange → t.marked s.link.mask .flash l (lineByte l :: stampBytes s.stamp))))
    ∧ ((x.call = .disabled ∨ x.call = .test) → x.test.running = false → x.ringing = false → x.run = none →
        ∃ t : State, exec (.scan l r) s = .next t.settleLink ∧ s.OnlyLine l t
          ∧ t.line l = { x with track := ⟨0, 0⟩ } ∧ t.arb = s.arb ∧ t.link = s.link)

/-- A lift that leads to a party test (R52): in IDLE an origination (R69, R139), IDENT with its record and the OFFHOOK
standby event; in REVERT_RING, REVERT_CHECK (R108); during a calibration run, its failure OFFHOOK and an origination
(R168). That the overwritten flag of an open record is no is the model's choice (log 34). -/
def Obligations.LiftLeadsToAPartyTest : Prop :=
  (∀ (l : LineNo) (r : Reading) (s : State) (i : Instr), s.qualifies l r → (i = .offHook l r ∨ i = .scan l r) →
    (s.line l).call = .idle → (s.line l).run = none →
    ∃ t : State, exec i s = .next t.settleLink ∧ s.OnlyLine l t ∧ (t.line l).call = .ident ∧ s.tells t l none
      ∧ (t.line l).hook.state = .offhook ∧ (t.line l).test = ⟨true, 0, 0, 0⟩ ∧ (t.line l).timer = none
      ∧ (t.line l).record = some ⟨.originated, none, none, none, ⟨[], false⟩, s.stamp, none, 0, none, 0, false⟩
      ∧ (t.line l).digits = ⟨[], false⟩ ∧ (t.line l).out = ⟨[], false, false⟩ ∧ (t.line l).track = ⟨0, 0⟩
      ∧ t.row l = s.row l ∧ s.standbyTaken t 0)
  ∧ ∀ (l : LineNo) (r : Reading) (m : Manner) (i : Instr) (s : State), s.liftedBy l r m i →
    ((s.line l).call = .revertRing → (s.line l).run = none →
        ∃ t : State, exec i s = .next t.settleLink ∧ s.OnlyLine l t
        ∧ t.row l = none ∧ (t.line l).call = .revertCheck ∧ s.tells t l none ∧ (t.line l).timer = none
        ∧ (t.line l).manner = some m ∧ (t.line l).test = ⟨true, 0, 0, 0⟩ ∧ (t.line l).record = (s.line l).record
        ∧ (m = .trip → (t.line l).hook = ⟨.offhook, 0, 0, 0, 0⟩) ∧ (t.line l).hook.state = .offhook)
    ∧ (∀ run, (s.line l).call = .calibrating → (s.line l).run = some run →
        ∃ t : State, exec i s = .next t.settleLink ∧ s.OnlyLine l t
        ∧ (t.line l).call = .ident ∧ s.tells t l none ∧ s.runFailed t l run .offhook
        ∧ (t.line l).record = some ⟨.originated, none, none, none, ⟨[], false⟩, s.stamp, none, 0, none, 0, false⟩
        ∧ (t.line l).test = ⟨true, 0, 0, 0⟩ ∧ (m = .trip → (t.line l).hook = ⟨.offhook, 0, 0, 0, 0⟩))

/-- A lift on a line rung for a terminating call or an alarm is its answer (R78, R85), by an off-hook event or by a
ring trip. -/
def Obligations.LiftAnswersRinging : Prop :=
  ∀ (l : LineNo) (r : Reading) (m : Manner) (i : Instr) (s : State) (rec : Record), s.liftedBy l r m i →
    (s.line l).record = some rec → (s.line l).run = none →
    ((s.line l).call = .termRing → ∃ t : State, exec i s = .next t.settleLink ∧ s.OnlyLine l t
        ∧ t.row l = none ∧ (t.line l).call = .exchange ∧ s.tells t l none ∧ (t.line l).timer = none
        ∧ (t.line l).record = some { rec with answer := some s.stamp }
        ∧ (m = .trip → (t.line l).hook = (s.line l).hook)
        ∧ t.marked s.link.mask .answer l
            ([lineByte l, rec.kind.code, slotByte rec.called, m.code] ++ stampBytes s.stamp))
    ∧ ((s.line l).call = .alarmRing → ∃ t : State, exec i s = .next t.settleLink ∧ s.OnlyLine l t
        ∧ t.row l = none ∧ (t.line l).call = .exchWait ∧ s.tells t l none
        ∧ (t.line l).timer = some (s.settings.exchangeWait * 10)
        ∧ (t.line l).record = some { rec with answer := some s.stamp } ∧ (t.line l).out = ⟨[], false, false⟩
        ∧ (m = .trip → (t.line l).hook = ⟨.offhook, 0, 0, 0, 0⟩)
        ∧ t.marked s.link.mask .answer l
            ([lineByte l, rec.kind.code, slotByte rec.called, m.code] ++ stampBytes s.stamp)
        ∧ t.marked s.link.mask .exchangeRequest l
            ([lineByte l, rec.kind.code, slotByte rec.caller] ++ digitList (s.line l).digits.digits))

/-- An on-hook event by the call state (R64, R72, R74, R76, R81, R82, R105, R106, R114). -/
def Obligations.OnHookEndsTheCall : Prop :=
  ∀ (l : LineNo) (r : Reading) (i : Instr) (s : State), s.hangsUp l r → (i = .onHook l r ∨ i = .scan l r) →
    (s.line l).run = none →
    ∃ t : State, exec i s = .next t.settleLink ∧ s.OnlyLine l t ∧ (t.line l).hook = ⟨.onhook, 0, 0, 0, 0⟩
      ∧ (((s.line l).call = .dial ∨ (s.line l).call = .exchWait) → (t.line l).call = .idle ∧ (t.line l).timer = none
          ∧ ∀ rec, (s.line l).record = some rec →
              s.ends t l rec (s.line l).digits .abandoned ∧ s.tells t l (some .abandoned))
      ∧ (((s.line l).call = .exchange ∨ (s.line l).call = .revertTalk) → (t.line l).call = .idle
          ∧ ∀ rec, (s.line l).record = some rec → s.ends t l rec (s.line l).digits .normal ∧ s.tells t l (some .normal))
      ∧ (((s.line l).call = .reorder ∨ (s.line l).call = .lockout) →
          (t.line l).call = .idle ∧ (t.line l).timer = none ∧ s.tells t l none)
      ∧ ((s.line l).call = .revertTone → ∀ (rec : Record) (j : Slot), (s.line l).record = some rec → rec.called = some j →
          let e := (s.line l).active.entries.get j
          ((s.line l).loads.get e.channel = 0 → (t.line l).call = .idle
            ∧ s.ends t l rec (s.line l).digits .noLoad ∧ s.tells t l (some .noLoad))
          ∧ ((s.line l).loads.get e.channel ≠ 0 → (t.line l).call = .revertRing ∧ s.tells t l none
            ∧ (t.line l).timer = some (s.settings.revertNoAnswer * 10) ∧ (t.line l).record = some rec
            ∧ ∃ x, t.row l = some x ∧ x.cls = .ordinary ∧ x.reqType = .revert
                ∧ x.voiceA = ⟨e.side, e.channel, e.pattern, (s.line l).loads.get e.channel⟩
                ∧ x.voiceB = (match rec.caller with
                    | none => none
                    | some k =>
                      let c := (s.line l).active.entries.get k
                      if (s.line l).loads.get c.channel = 0 then none
                      else some ⟨c.side, c.channel, c.pattern, (s.line l).loads.get c.channel⟩)))
      ∧ (((s.line l).call = .idle ∨ (s.line l).call = .ident ∨ (s.line l).call = .termRing
            ∨ (s.line l).call = .revertRing ∨ (s.line l).call = .revertCheck ∨ (s.line l).call = .alarmRing) →
          (t.line l).call = (s.line l).call ∧ (t.line l).record = (s.line l).record ∧ t.row l = s.row l)

/-- A completed digit by the call state (R48, R64, R71, R73, R74, R75), with each action of the dial plan (R100, R101),
and a digit error (R72, R74, R75); either is a DIGIT standby event (R49, R139). A digit completes at the thirtieth make
scan after its last pulse, by a hit, or before a flash, which in EXCHANGE is reported after it (R47, R76). -/
def Obligations.DigitsTakenByTheCallState : Prop :=
  ∀ (l : LineNo) (r : Reading) (i : Instr) (k : Nat) (flash : Bool) (s : State), s.dials l r k flash →
    (i = .digitComplete l r ∨ i = .scan l r) → (s.line l).run = none →
    let x := s.line l
    ∃ t : State, exec i s = .next t.settleLink ∧ s.OnlyLine l t ∧ s.standbyTaken t 1
      ∧ (t.line l).hook = ⟨.offhook, 0, 0, if flash then 1 else 30, 0⟩
      ∧ (flash = true → x.call = .exchange → t.marked s.link.mask .flash l (lineByte l :: stampBytes s.stamp))
      ∧ (∀ d : Digit, ((d ≠ 0 ∧ k = d.val) ∨ (d = 0 ∧ k = 10)) →
        let held : DigitBuffer :=
          if x.digits.digits.length < 16 then ⟨x.digits.digits ++ [d], x.digits.overflow⟩ else ⟨x.digits.digits, true⟩
        let sent : OutList :=
          if x.out.digits.length < 16 then ⟨x.out.digits ++ [d], x.out.overflow, x.out.digitError⟩
          else ⟨x.out.digits, true, x.out.digitError⟩
        (x.call = .dial →
          (judgeDigits s.dialPlan held.digits = .collect → (t.line l).call = .dial ∧ (t.line l).digits = held
            ∧ (t.line l).timer = some (s.settings.interdigit * 10) ∧ (t.line l).record = x.record)
          ∧ ((judgeDigits s.dialPlan held.digits = .complete .exchange
              ∨ (judgeDigits s.dialPlan held.digits = .unmatched ∧ x.opts.getLsbD 3 = true)) →
            (t.line l).call = .exchWait ∧ s.tells t l none ∧ (t.line l).digits = held
              ∧ (t.line l).timer = some (s.settings.exchangeWait * 10) ∧ (t.line l).out = ⟨[], false, false⟩
              ∧ ∀ rec, x.record = some rec → (t.line l).record = some rec ∧ t.marked s.link.mask .exchangeRequest l
                  ([lineByte l, rec.kind.code, slotByte rec.caller] ++ digitList held.digits))
          ∧ ((judgeDigits s.dialPlan held.digits = .complete .refuse
              ∨ (judgeDigits s.dialPlan held.digits = .unmatched ∧ x.opts.getLsbD 3 = false)) →
            (t.line l).call = .reorder ∧ (t.line l).timer = some (s.settings.reorder * 10)
              ∧ ∀ rec, x.record = some rec → s.ends t l rec held .noMatch ∧ s.tells t l (some .noMatch))
          ∧ (judgeDigits s.dialPlan held.digits = .complete .revertParty → ∀ rec front last, x.record = some rec →
              held.digits = front ++ [last] →
              (∀ j : Slot, last.val = j.val + 1 → (x.active.entries.get j).present = true →
                s.revertJudged t l rec held (some (l, j)))
              ∧ ((∀ j : Slot, last.val = j.val + 1 → (x.active.entries.get j).present = false) →
                s.revertJudged t l rec held none))
          ∧ (judgeDigits s.dialPlan held.digits = .complete .revertSuffix → ∀ rec front (a b c : Digit),
              x.record = some rec → held.digits = front ++ [a, b, c] →
              s.revertJudged t l rec held (s.decodeSuffix (a.val * 100 + b.val * 10 + c.val))))
        ∧ (x.call = .exchWait → (t.line l).call = .exchWait ∧ (t.line l).digits = held ∧ (t.line l).out = sent
            ∧ (t.line l).timer = x.timer ∧ (t.line l).record = x.record)
        ∧ (x.call = .exchange → (t.line l).call = .exchange ∧ (t.line l).digits = x.digits ∧ (t.line l).out = sent
            ∧ (t.line l).record = x.record ∧ t.marked s.link.mask .digits l
              ([lineByte l, toByte ((if sent.overflow then 1 else 0) + (if sent.digitError then 2 else 0))]
                ++ digitList sent.digits)))
      ∧ (10 < k →
        (x.call = .dial → (t.line l).call = .reorder
          ∧ ∀ rec, x.record = some rec → s.ends t l rec x.digits .badDigit ∧ s.tells t l (some .badDigit))
        ∧ (x.call = .exchWait → (t.line l).call = .exchWait ∧ (t.line l).digits = x.digits
            ∧ (t.line l).out = { x.out with digitError := true } ∧ (t.line l).timer = x.timer)
        ∧ (x.call = .exchange → (t.line l).call = .exchange ∧ (t.line l).out = { x.out with digitError := true }
            ∧ t.marked s.link.mask .digits l
              ([lineByte l, toByte ((if x.out.overflow then 1 else 0) + 2)] ++ digitList x.out.digits)))
      ∧ (x.call ≠ .dial → x.call ≠ .exchWait → x.call ≠ .exchange → (t.line l).call = x.call
          ∧ (t.line l).record = x.record ∧ (t.line l).digits = x.digits ∧ (t.line l).out = x.out)

/-- A scan of a party test before its third adds its two readings (R52). The party-test result (R53): in IDENT it identifies
the caller (R70), with ORIGINATION and DIAL; in REVERT_CHECK it is an early lift, its third, or an answer (R110, R111,
R112). That the sums and the scan number of the test stand at 0 after its result is the model's choice (log 29). -/
def Obligations.PartyTestResultIsTaken : Prop :=
  (∀ (l : LineNo) (r : Reading) (s : State), s.paced l → (s.line l).fitted = true → r.present = true →
    (s.line l).test.running = true → (s.line l).test.scans ≤ 1 → (s.line l).run = none →
    let x := s.line l
    ∃ t : State, exec (.scan l r) s = .next t.settleLink ∧ s.OnlyLine l t ∧ t.arb = s.arb ∧ t.link = s.link
      ∧ t.line l = { x with
          test := ⟨true, x.test.scans + 1, x.test.tipSum + r.tip, x.test.ringSum + r.ring⟩, track := ⟨0, 0⟩ })
  ∧ (∀ (l : LineNo) (r : Reading) (i : Instr) (tip ring : Nat) (s : State) (rec : Record), s.endsTest l r tip ring →
    (i = .partyTestResult l r ∨ i = .scan l r) → (s.line l).call = .ident → (s.line l).record = some rec →
    (s.line l).run = none →
    let x := s.line l
    let h := s.settings.idThreshold
    let low := if x.opts.getLsbD 1 then ring else tip
    let high := if x.opts.getLsbD 1 then tip else ring
    let result : TestResult :=
      if h ≤ low then (if h ≤ high then .both else .tip) else (if h ≤ high then .ring else .neither)
    let on := fun (d : Side) (j : Slot) => (x.active.entries.get j).present = true ∧ (x.active.entries.get j).side = d
    ∃ (t : State) (caller : Option Slot), exec i s = .next t.settleLink ∧ s.OnlyLine l t
      ∧ (t.line l).call = .dial ∧ s.tells t l none ∧ (t.line l).timer = some (s.settings.firstDigit * 10)
      ∧ (t.line l).dialBegun = false ∧ (t.line l).test = ⟨false, 0, 0, 0⟩ ∧ (t.line l).hook = x.hook
      ∧ (t.line l).record = some { rec with idResult := some result, caller := caller }
      ∧ t.marked s.link.mask .origination l
          ([lineByte l, slotByte caller, testResultCode (some result)] ++ stampBytes rec.start)
      ∧ (∀ j, caller = some j ↔ ((result = .tip ∧ on .tip j ∧ ∀ k, on .tip k → k = j)
          ∨ (result = .ring ∧ on .ring j ∧ ∀ k, on .ring k → k = j)))
      ∧ t.arb = s.arb)
  ∧ ∀ (l : LineNo) (r : Reading) (i : Instr) (tip ring : Nat) (s : State) (rec : Record) (called : Slot),
    s.endsTest l r tip ring → (i = .partyTestResult l r ∨ i = .scan l r) → (s.line l).call = .revertCheck →
    (s.line l).record = some rec → rec.called = some called → (s.line l).run = none →
    let x := s.line l
    let result := x.testResult (x.test.tipSum + r.tip) (x.test.ringSum + r.ring) s.settings.idThreshold
    let side := fun (j : Slot) => (x.active.entries.get j).side
    let early := ∃ j, rec.caller = some j ∧ ((result = .tip ∧ side j = .tip ∧ side called ≠ .tip)
      ∨ (result = .ring ∧ side j = .ring ∧ side called ≠ .ring))
    ∃ t : State, exec i s = .next t.settleLink ∧ s.OnlyLine l t ∧ (t.line l).test = ⟨false, 0, 0, 0⟩
      ∧ (early → rec.early ≤ 1 → (t.line l).call = .revertTone ∧ (t.line l).timer = some (s.settings.hangupWait * 10)
          ∧ (t.line l).record = some { rec with early := rec.early + 1 } ∧ s.tells t l none)
      ∧ (early → rec.early = 2 → (t.line l).call = .reorder ∧ (t.line l).timer = some (s.settings.reorder * 10)
          ∧ s.ends t l { rec with early := 3 } x.digits .earlyLift ∧ s.tells t l (some .earlyLift))
      ∧ (¬early → (t.line l).call = .revertTalk ∧ (t.line l).timer = none ∧ s.tells t l none
          ∧ (t.line l).record = some { rec with answer := some s.stamp }
          ∧ ∀ m, x.manner = some m → t.marked s.link.mask .answer l
              ([lineByte l, rec.kind.code, slotByte (some called), m.code] ++ stampBytes s.stamp))

/-- The tracking window (R56, R57, R58): a tracking scan adds its reading; the hundredth moves the baseline by an
eighth of the difference, truncated toward zero, and judges LEAKY; a scan that is no tracking scan discards the window.
That the hundredth LEAK scan which fails its run, and so leaves the line IDLE and ONHOOK, is no tracking scan is the model's
reading (log 13): tracking is judged before the LEAK work. The ninetieth break scan, after which a line may stand IDLE and
ONHOOK, is not spoken of here. -/
def Obligations.TrackingWindowMovesTheBaseline : Prop :=
  (∀ (l : LineNo) (r : Reading) (s : State), s.discards l r →
    ∃ t : State, exec (.scan l r) s = .next t.settleLink ∧ (t.line l).track = ⟨0, 0⟩)
  ∧ ∀ (l : LineNo) (r : Reading) (s : State), s.watched l r → (s.line l).call = .idle → (s.line l).run = none →
    ¬s.makes l r → ((s.line l).hook.state = .onhook ∨ (s.line l).hook.state = .qualify) →
    let x := s.line l
    let a := (x.track.sum + r.loop) / 100
    (x.track.count < 99 → ∃ t : State, exec (.scan l r) s = .next t.settleLink ∧ s.OnlyLine l t ∧ t.arb = s.arb
        ∧ t.link = s.link ∧ t.line l = { x with
            hook := { x.hook with state := .onhook, qualify := (t.line l).hook.qualify }
            track := ⟨x.track.count + 1, x.track.sum + r.loop⟩ })
    ∧ (x.track.count = 99 → ∀ i : Instr, (i = .trackingWindowClose l r ∨ i = .scan l r) →
        ∃ t : State, exec i s = .next t.settleLink ∧ s.OnlyLine l t ∧ t.arb = s.arb
          ∧ ((t.line l).baseline : Int) = x.baseline + Int.tdiv ((a : Int) - x.baseline) 8
          ∧ (t.line l).leaky = (if x.leakLimit < (t.line l).baseline then true
              else if (t.line l).baseline + 5 ≤ x.leakLimit then false else x.leaky)
          ∧ ((t.line l).leaky ≠ x.leaky → t.marked s.link.mask .lineFault l
              [lineByte l, if (t.line l).leaky then 2 else 3, 1, flagByte (t.line l).leaky])
          ∧ ((t.line l).leaky = x.leaky → t.link = s.link)
          ∧ t.line l = { x with
              hook := { x.hook with state := .onhook, qualify := (t.line l).hook.qualify }
              track := ⟨0, 0⟩, baseline := (t.line l).baseline, leaky := (t.line l).leaky })

/-- A scan under ringing, in its time (log 3), that finds no trip (R154, R158): masked, met, failed, and measured for a TEST entry. -/
def Obligations.RingingScanIsMaskedThenJudged : Prop :=
  ∀ (l : LineNo) (r : Reading) (s : State) (p : Play) (d : RingDrive), s.paced l →
    (s.line l).fitted = true → r.present = true →
    (s.line l).test.running = false → (s.line l).play = some p → p.drive = some d →
    (∀ run, (s.line l).run = some run → run.phase ≠ .leak) →
    let met := (s.line l).baseline + (s.line l).tripThreshold ≤ r.dc
    let test := ∃ e, s.row l = some e ∧ e.reqType = .test
    p.inrush ≤ 5 → p.trip ≤ 2 → (p.inrush = 5 → met → p.trip ≤ 1) →
    ∃ (t : State) (q : Play), exec (.scan l r) s = .next t.settleLink ∧ s.OnlyLine l t ∧ t.arb = s.arb ∧ t.link = s.link
      ∧ t.line l = { s.line l with play := some q, track := ⟨0, 0⟩ }
      ∧ q.drive = p.drive ∧ q.burstStep = p.burstStep ∧ q.armed = p.armed
      ∧ (p.inrush < 5 → q.inrush = p.inrush + 1 ∧ q.trip = p.trip)
      ∧ (p.inrush = 5 → q.inrush = 5 ∧ (met → q.trip = p.trip + 1) ∧ (¬met → q.trip = 0))
      ∧ (test → 3 ≤ p.burstStep → p.burstStep ≤ 10 →
          q.acSum = p.acSum + r.ac ∧ q.dcSum = p.dcSum + r.dc ∧ q.measured = p.measured + 1)
      ∧ ((¬test ∨ p.burstStep < 3 ∨ 10 < p.burstStep) →
          q.acSum = p.acSum ∧ q.dcSum = p.dcSum ∧ q.measured = p.measured)

/-- A scan of a LEAK phase before its hundredth adds its reading, whatever else it finds short of an off-hook event. The
hundredth (R164, R165): LEAK_HIGH at or above the leak limit; SUPPLY when every window capacity of the first channel is
below its request load; else WAIT with a TEST request. -/
def Obligations.LeakPhaseEndsInWait : Prop :=
  (∀ (l : LineNo) (r : Reading) (s : State) (run : Run), s.watched l r →
    (s.line l).call = .calibrating → (s.line l).run = some run → run.phase = .leak → run.leakScans < 99 →
    ((s.line l).hook.state = .onhook ∨ (s.line l).hook.state = .qualify) → ¬s.qualifies l r →
    ∃ t : State, exec (.scan l r) s = .next t.settleLink ∧ s.OnlyLine l t ∧ t.arb = s.arb ∧ t.link = s.link
      ∧ t.line l = { s.line l with
          hook := (t.line l).hook, track := ⟨0, 0⟩
          run := some { run with leakScans := run.leakScans + 1, leakSum := run.leakSum + r.loop } })
  ∧ ∀ (l : LineNo) (r : Reading) (i : Instr) (s : State) (run : Run) (f : Channel), s.watched l r →
    (s.line l).call = .calibrating → (s.line l).run = some run → run.phase = .leak → run.leakScans = 99 →
    ((s.line l).hook.state = .onhook ∨ (s.line l).hook.state = .qualify) → ¬s.qualifies l r →
    run.mask.getLsbD f.val = true → (∀ c, c < f → run.mask.getLsbD c.val = false) →
    (i = .leakComplete l r ∨ i = .scan l r) →
    let x := s.line l
    let a := (run.leakSum + r.loop) / 100
    let load := if 0 < x.loads.get f then x.loads.get f else s.arb.assumedLoad
    let small := ∀ w, (s.arb.caps.get f).get w < load
    let full : Run := { run with leakScans := 100, leakSum := run.leakSum + r.loop }
    ∃ t : State, exec i s = .next t.settleLink ∧ s.OnlyLine l t
      ∧ (x.leakLimit ≤ a → (t.line l).call = .idle ∧ s.tells t l none ∧ s.runFailed t l full .leakHigh)
      ∧ (a < x.leakLimit → small → (t.line l).call = .idle ∧ s.tells t l none
          ∧ s.runFailed t l { full with leakAvg := some a, phase := .wait, channel := f } .supply)
      ∧ (a < x.leakLimit → ¬small → t.testRequested l { full with leakAvg := some a } f load)

/-! ### Step events, pulses and frame boundaries -/

/-- The timebase's table (R31 to R37): how the scans count up to the tenth, which brings the step event; how a step event
moves the position by the role and the follower state; and what a pulse on FSYNC does. There is no step event before the
tenth scan (R40), and one that the sender has not sent by the end of the tenth period is taken before the scan that opens
the next. The model's own are: which scan opens a period, with the fields `scanned` and `stepDue`, and the place of the
step event in the tenth period (log 3), what a row that names no event does (log 4), that the step event at which a window
closes unmet is also FOLLOWER_WINDOW_UNMET (log 5), and the flags of an open window (log 20) and of the pulse driven out
(log 21). -/
def Obligations.TimebaseFollowsItsTable : Prop :=
  (∀ (l : LineNo) (r : Reading) (s : State), s.paced l → ∃ t : State, exec (.scan l r) s = .next t.settleLink
    ∧ (let a := s.timebase; let b := t.timebase
       let opens := a.scanned = 0 ∨ a.scanned.getLsbD l.val = true
       b = { a with scanCount := b.scanCount, scanned := b.scanned, stepDue := b.stepDue }
         ∧ (opens → a.scanCount < 9 → b.scanCount = a.scanCount + 1 ∧ b.stepDue = a.stepDue)
         ∧ (opens → 9 ≤ a.scanCount → b.scanCount = a.scanCount ∧ b.stepDue = true)
         ∧ (¬opens → b.scanCount = a.scanCount ∧ b.stepDue = a.stepDue)
         ∧ ∀ m : LineNo, b.scanned.getLsbD m.val = true ↔ m = l ∨ (¬opens ∧ a.scanned.getLsbD m.val = true)))
    ∧ (∀ (first held : List Work) (s : State), s.timebase.stepDue = false →
        exec (.stepEvent first held) s = .next s ∧ exec (.followerWindowUnmet first held) s = .next s)
    ∧ (∀ (l : LineNo) (r : Reading) (s : State), ¬s.paced l →
        ∃ u : State, exec (.stepEvent [] []) s = .next u ∧ u.paced l ∧ exec (.scan l r) s = exec (.scan l r) u
          ∧ ∀ i ∈ [Instr.offHook l r, .onHook l r, .digitComplete l r, .partyTestResult l r, .trackingWindowClose l r,
              .ringTrip l r, .leakComplete l r],
            (exec i u ≠ .next u → exec i s = exec i u) ∧ (exec i u = .next u → exec i s = .next s))
    ∧ (∀ (first held : List Work) (s : State), s.timebase.stepDue = true → ∃ t : State, exec (.stepEvent first held) s = .next t.settleLink
    ∧ (let a := s.timebase; let b := t.timebase
       let free := if a.position = 59 then b.position = 0 ∧ b.parity = !a.parity
         else b.position = a.position + 1 ∧ b.parity = a.parity
       let realigned := b.position = 0 ∧ b.parity = !a.parity
       let f := fun (x : Follower) => a.role = .follower ∧ a.follower = some x
       let tracked := fun (missed : Follower) =>
         (a.position = 58 → a.latch = true → realigned ∧ b.follower = some .locked ∧ b.windowOpen = false)
         ∧ (a.position = 59 → a.latch = true → free ∧ b.follower = some .locked ∧ b.windowOpen = false)
         ∧ (a.position = 59 → a.latch = false → free ∧ b.follower = a.follower ∧ b.windowOpen = true)
         ∧ (a.position = 0 → a.windowOpen = true → a.latch = true →
             b.position = 0 ∧ b.parity = a.parity ∧ b.follower = some .locked ∧ b.windowOpen = false)
         ∧ (a.position = 0 → a.windowOpen = true → a.latch = false →
             free ∧ b.follower = some missed ∧ b.windowOpen = false)
         ∧ (¬(a.position = 58 ∧ a.latch = true) → a.position ≠ 59 → ¬(a.position = 0 ∧ a.windowOpen = true) →
             free ∧ b.follower = a.follower ∧ b.windowOpen = a.windowOpen)
       b.stamp = a.stamp + 1 ∧ b.scanCount = 0 ∧ b.stepDue = false ∧ b.scanned = a.scanned ∧ b.latch = false
         ∧ b.role = a.role
         ∧ (a.role ≠ .follower → free ∧ b.follower = a.follower ∧ b.remembered = a.remembered)
         ∧ (f .acquiring → a.latch = false → free ∧ b.follower = some .acquiring
             ∧ b.remembered = a.remembered.map (· + 1))
         ∧ (f .acquiring → a.latch = true → ∀ n, a.remembered = some n → 59 ≤ n + 1 → n + 1 ≤ 61 →
             realigned ∧ b.follower = some .locked ∧ b.remembered = none)
         ∧ (f .acquiring → a.latch = true → (∀ n, a.remembered = some n → n + 1 < 59 ∨ 61 < n + 1) →
             free ∧ b.follower = some .acquiring ∧ b.remembered = some 0)
         ∧ (f .locked → tracked .holdover) ∧ (f .holdover → tracked .lost)
         ∧ (f .lost → a.latch = true → free ∧ b.follower = some .acquiring ∧ b.remembered = some 0)
         ∧ (f .lost → a.latch = false → free ∧ b.follower = some .lost)
         ∧ (b.pulseOut = true ↔ a.role = .master ∧ b.parity ≠ a.parity)))
    ∧ (∀ s : State, s.timebase.role = .follower → exec .fsyncPulse s =
        .next ({ s with timebase := { s.timebase with latch := true } }.settleLink))
    ∧ (∀ s : State, s.timebase.role ≠ .follower → exec .fsyncPulse s = .next s.settleLink)
    ∧ (∀ (first held : List Work) (s : State), s.timebase.stepDue = true → s.timebase.role = .follower →
        (s.timebase.follower = some .locked ∨ s.timebase.follower = some .holdover) → s.timebase.position = 0 →
        s.timebase.windowOpen = true → s.timebase.latch = false →
        ∃ t : State, exec (.followerWindowUnmet first held) s = .next t.settleLink ∧ t.timebase.position = 1
          ∧ t.timebase.follower = (if s.timebase.follower = some .locked then some .holdover else some .lost)
          ∧ exec (.followerWindowUnmet first held) s = exec (.stepEvent first held) s)

/-- The works of a step event (R31): which they are, by the state that the moved timebase finds (log 7); each is done
once, or held for a command of its own. That is the model's way to leave the order open (log 6): those named in `held` are
held, the ring engine's excepted; of the others those named in `first` are done first, in the order of their first place
there. SYNC is marked when the follower state changed (R32). Works of the step
event before that are still held are taken at its start, the arbiter's last (log 6). -/
def Obligations.StepEventTakesEveryWorkOnce : Prop :=
  (∀ (first held : List Work) (s : State), s.timebase.stepDue = true →
    let u := (s.due.foldl (fun (v : State) w => v.doWork w) { s with due := [] }).runBoundary
    u.due = [] ∧ u.boundary = none ∧ u.timebase = s.timebase
      ∧ exec (.stepEvent first held) s = exec (.stepEvent first held) u)
  ∧ ∀ (first held : List Work) (s : State), s.timebase.stepDue = true → s.due = [] → s.boundary = none →
    let m := s.advanceTimebase
    let boundary := s.timebase.advance.2
    ∃ (works done kept : List Work) (t : State), exec (.stepEvent first held) s = .next t.settleLink
      ∧ t = done.foldl (fun u w => u.doWork w) (kept.foldl (fun u w => u.hold w) m)
      ∧ (done ++ kept).Perm works ∧ works.Nodup
      ∧ (∀ w, w ∈ kept ↔ w ∈ works ∧ w ∈ held ∧ ∀ l, w ≠ .ring l)
      ∧ (∃ front rest : List Work, done = front ++ rest ∧ (∀ w ∈ rest, w ∉ first) ∧ (∀ w ∈ front, w ∈ first)
          ∧ front.Pairwise fun v w => first.idxOf v < first.idxOf w)
      ∧ (∀ l, Work.ring l ∈ works)
      ∧ (∀ l, Work.callTimer l ∈ works ↔ (s.line l).timer ≠ none)
      ∧ (∀ l, Work.pendingAlarm l ∈ works ↔ (s.line l).call = .idle ∧ (s.line l).alarmPending ≠ none)
      ∧ (∀ l, Work.activation l ∈ works ↔ boundary = true ∧ (s.line l).commitPending = true)
      ∧ (∀ l, Work.alarmCount l ∈ works ↔ boundary = true ∧ (s.line l).call = .alarmRing)
      ∧ (∀ l, Work.calWait l ∈ works ↔ boundary = true ∧ ∃ r, (s.line l).run = some r ∧ r.phase = .wait)
      ∧ (Work.arbiter ∈ works ↔ boundary = true)
      ∧ m.lines = s.lines ∧ m.arb = s.arb
      ∧ (m.timebase.follower ≠ s.timebase.follower → kindIn .sync s.link.mask = true →
          (m.link.slots.get 16).get 11 = some ([m.timebase.role.code, followerCode m.timebase.follower]
            ++ stampBytes m.timebase.stamp)
          ∧ kindIn .sync (m.link.pendingSets.get 16) = true)
      ∧ (m.timebase.follower = s.timebase.follower → m.link = s.link)

/-- The call timer (R67): a count above 1 falls by 1 at its work; at 1 it stops and the expiry acts by the call state
(R72, R74, R79, R81, R105, R109). That a work may be held, and is then taken by CALL_TIMER_EXPIRY and no longer due, is
the model's choice (log 6). -/
def Obligations.CallTimerExpiresByState : Prop :=
  (∀ (l : LineNo) (n : Nat) (s : State), (s.line l).timer = some n → 2 ≤ n →
      s.doWork (.callTimer l) = s.setLine l { s.line l with timer := some (n - 1) })
    ∧ ∀ (l : LineNo) (s : State), Work.callTimer l ∈ s.due → (s.line l).timer = some 1 →
      let x := s.line l
      ∃ t : State, exec (.callTimerExpiry l) s = .next t.settleLink ∧ s.OnlyLine l t
        ∧ t = { s with due := s.due.erase (.callTimer l) }.doWork (.callTimer l) ∧ t.due = s.due.erase (.callTimer l)
        ∧ (∀ (cause : EndCause), ((x.call = .dial ∧ cause = .abandoned) ∨ (x.call = .exchWait ∧ cause = .noExchange)
              ∨ (x.call = .revertTone ∧ cause = .noHangup)) →
            (t.line l).call = .reorder ∧ (t.line l).timer = some (s.settings.reorder * 10) ∧ t.row l = s.row l
              ∧ ∀ r, x.record = some r → s.ends t l r x.digits cause ∧ s.tells t l (some cause))
        ∧ ((x.call = .termRing ∨ x.call = .revertRing) → (t.line l).call = .idle ∧ (t.line l).timer = none
            ∧ t.row l = none ∧ ∀ r, x.record = some r → s.ends t l r x.digits .noAnswer ∧ s.tells t l (some .noAnswer))
        ∧ (x.call = .reorder → (t.line l).call = .lockout ∧ (t.line l).timer = none ∧ s.tells t l none)

/-- The works of a boundary or step event (R16, R84, R85, R166): an alarm count above 1 falls by 1, a wait count below 9
rises by 1, and a work that finds nothing to do does nothing. And those that a sender took by commands of their own
(log 6): the start or drop of a pending alarm (R84), the end of an alarm count (R85), the activation of a commit (R16),
the tenth frame of a calibration's wait (R166, R172). An alarm that starts ends the line's tracking window (R56; log 13); the
overwritten flag of its open record is no by the model's choice (log 34). -/
def Obligations.HeldWorksTakenByTheirCommands : Prop :=
  ∀ (l : LineNo) (s : State),
    let x := s.line l
    (x.call = .alarmRing → 2 ≤ x.alarmCount →
      s.doWork (.alarmCount l) = s.setLine l { x with alarmCount := x.alarmCount - 1 })
    ∧ (x.call ≠ .alarmRing → s.doWork (.alarmCount l) = s)
    ∧ (∀ r, x.run = some r → r.phase = .wait → r.waitCount < 9 →
      s.doWork (.calWait l) = s.setLine l { x with run := some { r with waitCount := r.waitCount + 1 } })
    ∧ ((∀ r, x.run = some r → r.phase ≠ .wait) → s.doWork (.calWait l) = s)
    ∧ ((x.call ≠ .idle ∨ x.alarmPending = none) → s.doWork (.pendingAlarm l) = s)
    ∧ ((x.commitPending = false ∨ (x.call ≠ .idle ∧ x.call ≠ .disabled ∧ x.call ≠ .lockout)) →
      s.doWork (.activation l) = s)
    ∧ (∀ n, Work.pendingAlarm l ∈ s.due → x.call = .idle → x.alarmPending = some n →
      ∃ t : State, exec (.pendingAlarmStart l) s = .next t.settleLink ∧ s.OnlyLine l t
        ∧ t = { s with due := s.due.erase (.pendingAlarm l) }.doWork (.pendingAlarm l) ∧ t.due = s.due.erase (.pendingAlarm l)
        ∧ (t.line l).alarmPending = none ∧ s.tells t l none
        ∧ ((x.active.alarmPattern = none ∨ x.loads.get x.active.alarmChannel = 0) →
            t.line l = { x with alarmPending := none } ∧ t.arb = s.arb)
        ∧ (∀ p, x.active.alarmPattern = some p → x.loads.get x.active.alarmChannel ≠ 0 →
            (t.line l).call = .alarmRing ∧ (t.line l).alarmCount = n ∧ (t.line l).track = ⟨0, 0⟩
              ∧ (t.line l).record = some ⟨.alarm, none, none, none, ⟨[], false⟩, s.stamp, none, 0, none, 0, false⟩
              ∧ ∃ e, t.row l = some e ∧ e.cls = .alarm ∧ e.reqType = .alarm ∧ e.voiceB = none
                  ∧ e.voiceA = ⟨.bridged, x.active.alarmChannel, p, x.loads.get x.active.alarmChannel⟩))
    ∧ (Work.alarmCount l ∈ s.due → x.call = .alarmRing → x.alarmCount = 1 →
      ∃ t : State, exec (.alarmCountEnd l) s = .next t.settleLink ∧ s.OnlyLine l t
        ∧ t = { s with due := s.due.erase (.alarmCount l) }.doWork (.alarmCount l) ∧ t.due = s.due.erase (.alarmCount l)
        ∧ (t.line l).call = .idle ∧ (t.line l).alarmCount = 0 ∧ t.row l = none
        ∧ ∀ r, x.record = some r → s.ends t l r x.digits .alarmEnd ∧ s.tells t l (some .alarmEnd))
    ∧ (Work.activation l ∈ s.due → x.commitPending = true → (x.call = .idle ∨ x.call = .disabled ∨ x.call = .lockout) →
      ∃ t : State, exec (.planActivation l) s = .next t.settleLink
        ∧ t = { s.setLine l { x with active := x.staged, commitPending := false } with
            link := t.link, due := s.due.erase (.activation l) }
        ∧ t = { s with due := s.due.erase (.activation l) }.doWork (.activation l)
        ∧ t.link.core = s.link.core ∧ t.marked s.link.mask .plan l (lineByte l :: stampBytes s.stamp))
    ∧ (∀ r, Work.calWait l ∈ s.due → x.run = some r → r.phase = .wait → r.waitCount = 9 →
      ∃ t : State, exec (.calibrationWaitLimit l) s = .next t.settleLink ∧ s.OnlyLine l t
        ∧ t = { s with due := s.due.erase (.calWait l) }.doWork (.calWait l) ∧ t.due = s.due.erase (.calWait l)
        ∧ (t.line l).call = .idle ∧ s.runFailed t l r .supply)

/-! ### The arbiter -/

/-- Eviction (R132, R136), taken as a held work (log 6). Which entries go: reached newest first, the ORDINARY ones before
the ALARM ones, an entry goes exactly if a voice of it is ON at a point that the entries still there overload. Afterwards
no point is overloaded; what was suspended is SUSPENDED with a new wait and stands, oldest first, at the front of its
section (R131); a TEST entry is removed with its run failed SUPPLY (R169), and every other entry stands. Each that went
is reported SUSPENDED with cause CAPACITY (R144), at its place once all of the event have joined the queue (log 11). -/
def Obligations.EvictionLeavesNoOverload : Prop :=
  ∀ (s : State) (b : Boundary), s.boundary = some b → b.next = .eviction → s.evicted ≠ [] →
    s.arbiterLaw → s.profileLaw →
    let newestFirst := s.arb.placedOrder.reverse
    let order := (newestFirst.filter fun l => !s.alarmEntry l) ++ newestFirst.filter s.alarmEntry
    ∃ t : State, exec .eviction s = .next t.settleLink ∧ t = s.runStage b ∧ s.SameTables t
      ∧ t.arb.given = s.arb.given
      ∧ (∀ before l after e φ, order = before ++ l :: after → s.row l = some e → e.state = .placed φ →
          let left := fun (c : Channel) (cs : Fin 120) =>
            (lineNos.map fun m => if m ∈ before ∧ t.placed m = false then 0 else s.loadOf c cs.val m).sum
          (t.placed l = false ↔ ∃ (cs : Fin 120) (v : Voice), s.voiceOn e φ cs.val = some v
            ∧ s.capacity v.channel cs.val < left v.channel cs))
      ∧ t.arb.placedOrder = s.arb.placedOrder.filter t.placed
      ∧ t.arb.waitQueue = s.queueWith (s.arb.placedOrder.filter t.queued)
      ∧ (let out := s.arb.placedOrder.filter fun l => !t.placed l
         ∀ l e, l ∈ out → s.row l = some e → t.marked s.link.mask .ring l
           ([lineByte l, 0, 1, 0xFF, e.reqType.code, 2, 0, toByte ((s.queueWith out).idxOf l + 1)]
             ++ stampBytes s.stamp))
      ∧ (∀ (c : Channel) (cs : Fin 120), (t.arb.profile.get c).get cs ≤ s.capacity c cs.val)
      ∧ (∀ l, s.placed l = false → t.row l = s.row l ∧ t.line l = s.line l)
      ∧ ∀ l e φ, s.row l = some e → e.state = .placed φ →
          (t.row l = some e ∧ t.line l = s.line l ∧ l ∈ t.arb.placedOrder)
          ∨ (e.reqType ≠ .test ∧ t.row l = some { e with state := .suspended, waited := 0, delayed := false }
              ∧ t.line l = { s.line l with play := none } ∧ l ∈ t.arb.waitQueue)
          ∨ (e.reqType = .test ∧ ((s.line l).run ≠ none → t.row l = none ∧ (t.line l).run = none
              ∧ (t.line l).calStatus = .failed ∧ (t.line l).calCause = some .supply ∧ (t.line l).call = .idle))

/-- The queue walk (R133), taken as a held work (log 6): from the head, entries on a faulted channel are passed over; each
other entry is placed at the offset that its admission search (R128) finds in the state that the placements before it
left, by R129, up to the first whose search fails there, which holds back all behind it. An entry that was suspended or
whose wait had been reported is reported RESUMED (R129, R144); a placed line no longer counts as one that stood in the
queue (R134). -/
def Obligations.QueueWalkStopsAtTheFirstThatDoesNotFit : Prop :=
  ∀ (s : State) (b : Boundary), s.boundary = some b → b.next = .queueWalk → s.arb.supply = .on → s.arbiterLaw →
    let faulty := fun (l : LineNo) => match s.row l with
      | none => false
      | some e => channels.any fun c => e.uses c && s.arb.faults.getLsbD c.val
    let after := fun (ps : List (LineNo × Nat)) => ps.foldl
      (fun (u : State) p => match s.row p.1 with
        | none => u
        | some e => u.placeEntry p.1 e p.2)
      { s with boundary := some { b with next := .waitCounting } }
    ∃ (front rest : List LineNo) (ps : List (LineNo × Nat)),
      s.arb.waitQueue = front ++ rest ∧ ps.map Prod.fst = front.filter (fun l => !faulty l)
      ∧ (∀ before l φ later, ps = before ++ (l, φ) :: later → ∀ e, s.row l = some e →
          (after before).search e = some φ)
      ∧ (∀ l tail, rest = l :: tail → faulty l = false ∧ ∀ e, s.row l = some e → (after ps).search e = none)
      ∧ exec .queueWalk s = .next (after ps).settleLink ∧ s.runStage b = after ps
      ∧ (let t := after ps
         t.arb.waitQueue = front.filter faulty ++ rest
          ∧ t.arb.placedOrder = s.arb.placedOrder ++ ps.map Prod.fst
          ∧ t.boundary = some
              { b with next := .waitCounting, stood := b.stood.filter fun l => !(ps.map Prod.fst).contains l }
          ∧ (∀ l φ e, (l, φ) ∈ ps → s.row l = some e →
              t.row l = some { e with state := .placed φ, waited := 0, delayed := false }
              ∧ t.line l = (if e.reqType = .test then
                  { s.line l with run := (s.line l).run.map fun r => { r with phase := .ring } } else s.line l)
              ∧ ((e.state = .suspended ∨ e.delayed = true) → t.marked s.link.mask .ring l
                  ([lineByte l, 2, 0, 0xFF, e.reqType.code, 0, 0, 0] ++ stampBytes s.stamp))
              ∧ (e.state ≠ .suspended → e.delayed = false →
                  (t.link.slots.get (State.lineEntry l)).get 6 = (s.link.slots.get (State.lineEntry l)).get 6
                  ∧ t.link.pendingSets.get (State.lineEntry l) = s.link.pendingSets.get (State.lineEntry l)))
          ∧ (∀ l, l ∉ ps.map Prod.fst → t.row l = s.row l ∧ t.line l = s.line l)
          ∧ s.SameTables t ∧ t.arb.given = s.arb.given ∧ t.arb.supply = .on ∧ t.link.core = s.link.core)

/-- The arbiter's work at a frame boundary (R132): its five parts in their order, eviction, warm-up, queue walk, wait
counting and standby counting, each on the state that the part before it left; and its counts (R134, R140, R141). A
warm-up count above 1 and an idle standby count above 1 fall by 1; the standby count is held while an entry stands and at
the boundary that made the supply ON; a wait rises by 1, to at most 255. The warm-up that ends makes the supply ON; a
counted wait that reaches the threshold is reported once; an idle standby count that runs out takes the supply to STANDBY.
Where the work is held, a part is taken by its command with the parts that are still before it, and not a second time
(log 6); where the command's event does not occur, nothing changes (log 4). -/
def Obligations.BoundaryCounts : Prop :=
  (∀ s : State,
    let run := fun (u : State) => match u.boundary with
      | none => u
      | some b => u.runStage b
    s.runBoundary = run (run (run (run (run s)))) ∧ s.runBoundary.boundary = none
      ∧ s.doWork .arbiter = State.runBoundary { s with boundary := some ⟨.eviction, [], false⟩ })
  ∧ (∀ (s : State) (b : Boundary), s.boundary = some b →
    let t := s.runStage b
    let counted := fun (l : LineNo) => l ∈ b.stood ∧ l ∈ s.arb.waitQueue
    (b.next = .eviction → (∃ stood, t.boundary = some ⟨.warmUp, stood, false⟩
          ∧ (s.arbiterLaw → stood = s.arb.waitQueue))
        ∧ (s.arbiterLaw → s.evicted = [] → t = { s with boundary := t.boundary }))
    ∧ (b.next = .warmUp →
        t.boundary = some ⟨.queueWalk, b.stood, decide (s.arb.supply = .warming ∧ s.arb.warmUpCount ≤ 1)⟩
        ∧ (s.arb.supply ≠ .warming → t = { s with boundary := t.boundary })
        ∧ (s.arb.supply = .warming → 2 ≤ s.arb.warmUpCount → t = { s with
            boundary := t.boundary, arb := { s.arb with warmUpCount := s.arb.warmUpCount - 1 } }))
    ∧ (b.next = .queueWalk → (∃ stood, t.boundary = some ⟨.waitCounting, stood, b.becameOn⟩)
        ∧ (s.arb.supply ≠ .on → t = { s with boundary := some { b with next := .waitCounting } }))
    ∧ (b.next = .waitCounting → t.boundary = some { b with next := .standbyCounting }
        ∧ t = { s with boundary := t.boundary, arb := { s.arb with rows := t.arb.rows }, link := t.link }
        ∧ (∀ l, ¬counted l → t.row l = s.row l)
        ∧ (∀ l e, counted l → s.row l = some e → t.row l = some { e with
            waited := min 255 (e.waited + 1)
            delayed := e.delayed || decide (s.arb.waitThreshold ≤ min 255 (e.waited + 1)) })
        ∧ ((∀ l e, counted l → s.row l = some e → e.delayed = true ∨ min 255 (e.waited + 1) < s.arb.waitThreshold) →
            t.link = s.link))
    ∧ (b.next = .standbyCounting → t.boundary = none
        ∧ (s.arb.supply = .on → b.becameOn = false → (∀ l, s.row l = none) → 2 ≤ s.arb.standbyCount → t = { s with
            boundary := none, arb := { s.arb with standbyCount := s.arb.standbyCount - 1 } })
        ∧ ((s.arb.supply ≠ .on ∨ b.becameOn = true ∨ ∃ l, s.row l ≠ none) → t = { s with boundary := none })))
  ∧ (∀ (s : State) (l : LineNo) (g : Stage) (i : Instr),
    (g, i) ∈ [(Stage.eviction, Instr.eviction), (.warmUp, .warmUpEnd), (.queueWalk, .queueWalk),
      (.waitCounting, .ringDelayed l), (.standbyCounting, .standbyTimeout)] →
    (s.boundary = none → exec i s = .next s)
    ∧ ∀ b, s.boundary = some b →
      (g.rank < b.next.rank → exec i s = .next s)
      ∧ (b.next.rank < g.rank →
          (exec i (s.runStage b) ≠ .next (s.runStage b) → exec i s = exec i (s.runStage b))
          ∧ (exec i (s.runStage b) = .next (s.runStage b) → exec i s = .next s)))
  ∧ ∀ (s : State) (b : Boundary), s.boundary = some b →
    (b.next = .warmUp → s.arb.supply = .warming → s.arb.warmUpCount ≤ 1 →
      ∃ t : State, exec .warmUpEnd s = .next t.settleLink ∧ t = s.runStage b
        ∧ t.arb = { s.arb with supply := .on, warmUpCount := 0, standbyCount := s.arb.standbyFrames }
        ∧ t.lines = s.lines ∧ t.link.core = s.link.core
        ∧ (kindIn .supply s.link.mask = true →
            (t.link.slots.get 16).get 12 = some ([2, 0xFF, 2, toByte s.arb.faults.toNat] ++ stampBytes s.stamp)
            ∧ kindIn .supply (t.link.pendingSets.get 16) = true))
    ∧ (∀ l e, b.next = .waitCounting → l ∈ b.stood → l ∈ s.arb.waitQueue → s.row l = some e → e.delayed = false →
      s.arb.waitThreshold ≤ min 255 (e.waited + 1) →
      ∃ t : State, exec (.ringDelayed l) s = .next t.settleLink ∧ t = s.runStage b
        ∧ t.row l = some { e with waited := min 255 (e.waited + 1), delayed := true }
        ∧ t.marked s.link.mask .ring l ([lineByte l, 1, 0, 0xFF, e.reqType.code, e.state.code,
            toByte (min 255 (e.waited + 1)), toByte (s.arb.waitQueue.idxOf l + 1)] ++ stampBytes s.stamp)
        ∧ (∀ m e', m ∈ b.stood → m ∈ s.arb.waitQueue → s.row m = some e' → ∃ e'', t.row m = some e''
            ∧ e''.waited = min 255 (e'.waited + 1) ∧ e''.state = e'.state)
        ∧ (∀ m, (m ∉ b.stood ∨ m ∉ s.arb.waitQueue) → t.row m = s.row m)
        ∧ t.lines = s.lines ∧ t.arb = { s.arb with rows := t.arb.rows })
    ∧ (b.next = .standbyCounting → b.becameOn = false → s.arb.supply = .on → (∀ l, s.row l = none) →
      s.arb.standbyCount = 1 →
      ∃ t : State, exec .standbyTimeout s = .next t.settleLink ∧ t = s.runStage b
        ∧ t.arb = { s.arb with supply := .standby, standbyCount := 0 } ∧ t.lines = s.lines
        ∧ t.link.core = s.link.core
        ∧ (kindIn .supply s.link.mask = true →
            (t.link.slots.get 16).get 12 = some ([0, 0xFF, 0, toByte s.arb.faults.toNat] ++ stampBytes s.stamp)
            ∧ kindIn .supply (t.link.pendingSets.get 16) = true))

/-- The supply fault inputs (R122, R135, R136, R143, R146): the first sample sets the fault set alone; an assertion
suspends every placed entry on the channel, which stand, oldest placed first, at the front of their sections (R131), and
reports each SUSPENDED with cause FAULT and the channel (R144), at its place once all of the event have joined the queue
(log 11); a release places nothing. -/
def Obligations.FaultInputsSuspendTheirChannel : Prop :=
  ∀ (c : Channel) (s : State),
    (∀ v : BitVec 4, s.arb.faultSampled = false → exec (.firstFaultSample v) s =
        .next ({ s with arb := { s.arb with faults := v, faultSampled := true } }.settleLink))
    ∧ (s.arb.faultSampled = true → s.arb.faults.getLsbD c.val = true →
        ∃ t : State, exec (.faultRelease c) s = .next t.settleLink
          ∧ t = { s with arb := { s.arb with faults := t.arb.faults }, link := t.link }
          ∧ (∀ d : Channel, t.arb.faults.getLsbD d.val = (s.arb.faults.getLsbD d.val && d != c))
          ∧ t.link.core = s.link.core
          ∧ (kindIn .supply s.link.mask = true →
              (t.link.slots.get 16).get 12 = some ([4, toByte c.val, s.arb.supply.code, toByte t.arb.faults.toNat]
                ++ stampBytes s.stamp)
              ∧ kindIn .supply (t.link.pendingSets.get 16) = true))
    ∧ (s.arb.faultSampled = true → s.arb.faults.getLsbD c.val = false → s.arbiterLaw →
        let out := s.arb.placedOrder.filter fun l => match s.row l with
          | none => false
          | some e => e.uses c
        ∃ t : State, exec (.faultAssertion c) s = .next t.settleLink
          ∧ t.arb.placedOrder = s.arb.placedOrder.filter (fun l => !out.contains l)
          ∧ t.arb.waitQueue = s.queueWith (s.arb.placedOrder.filter t.queued)
          ∧ (∀ l e, l ∈ out → s.row l = some e → t.marked s.link.mask .ring l
              ([lineByte l, 0, 2, toByte c.val, e.reqType.code, 2, 0, toByte ((s.queueWith out).idxOf l + 1)]
                ++ stampBytes s.stamp))
          ∧ (∀ d : Channel, t.arb.faults.getLsbD d.val = (s.arb.faults.getLsbD d.val || d == c))
          ∧ (∀ l, (∀ e φ, s.row l = some e → e.state = .placed φ → e.uses c = false) →
              t.row l = s.row l ∧ t.line l = s.line l)
          ∧ (∀ l e φ, s.row l = some e → e.state = .placed φ → e.uses c = true →
              (e.reqType ≠ .test → t.row l = some { e with state := .suspended, waited := 0, delayed := false }
                ∧ t.line l = { s.line l with play := none } ∧ l ∈ t.arb.waitQueue)
              ∧ (e.reqType = .test → (s.line l).run ≠ none → t.row l = none ∧ (t.line l).run = none
                ∧ (t.line l).calStatus = .failed ∧ (t.line l).calCause = some .supply))
          ∧ s.SameTables t ∧ t.link.core = s.link.core
          ∧ (kindIn .supply s.link.mask = true →
              (t.link.slots.get 16).get 12 = some ([3, toByte c.val, s.arb.supply.code, toByte t.arb.faults.toNat]
                ++ stampBytes s.stamp)
              ∧ kindIn .supply (t.link.pendingSets.get 16) = true))

/-- The capacity in force (R38, R122) and the admission search (R128): the first candidate offset at which the entry's
load fits at each of its ON steps. That every channel is judged at an ON step, and none at an OFF step, is the model's
reading (log 12). -/
def Obligations.AdmissionTakesTheFirstFittingOffset : Prop :=
  ∀ (e : Entry) (s : State),
    (∀ (c : Channel) (cs : Nat), cs < 120 →
      (s.arb.faults.getLsbD c.val = true → s.capacity c cs = 0)
      ∧ (s.arb.faults.getLsbD c.val = false → s.timebase.role = .follower →
          (s.timebase.follower = some .acquiring ∨ s.timebase.follower = some .lost) →
          (∀ w, s.capacity c cs ≤ (s.arb.caps.get c).get w) ∧ ∃ w, s.capacity c cs = (s.arb.caps.get c).get w)
      ∧ (s.arb.faults.getLsbD c.val = false →
          (s.timebase.role ≠ .follower ∨ s.timebase.follower = some .locked ∨ s.timebase.follower = some .holdover) →
          ∃ w : Fin 4, w.val = cs % 60 / 15 ∧ s.capacity c cs = (s.arb.caps.get c).get w))
    ∧ (let fits := fun (φ : Nat) => ∀ (c : Channel) (cs : Fin 120), (∃ d, 0 < s.loadAt e φ d cs.val) →
         (s.arb.profile.get c).get cs + s.loadAt e φ c cs.val ≤ s.capacity c cs.val
       let offset := fun (k : Nat) => (s.arb.phaseBase + k * s.arb.stride) % 120
       0 < e.voiceA.load → (∀ v, e.voiceB = some v → 0 < v.load) →
       (∀ φ, s.search e = some φ ↔ ∃ k, k < 120 / s.arb.stride ∧ φ = offset k ∧ fits φ ∧ ∀ j, j < k →
          ¬fits (offset j) ∨ offset j = φ)
       ∧ (s.search e = none ↔ ∀ k, k < 120 / s.arb.stride → ¬fits (offset k)))

/-- A request (R125, R129, R130, R131, R139): the entry with its loads placed at once when its condition holds and the
search succeeds, else WAITING at its place in the queue; a REQUEST standby event either way. -/
def Obligations.RequestsAreAdmittedOrQueued : Prop :=
  ∀ (l : LineNo) (e : Entry) (s : State), e.state = .waiting → e.waited = 0 → e.delayed = false → s.row l = none →
    s.arbiterLaw →
    let t := s.request l e
    let at_once := s.arb.supply = .on ∧ (match e.cls with
      | .ordinary => s.arb.waitQueue = []
      | .alarm => ∀ m ∈ s.arb.waitQueue, s.alarmEntry m = false)
    (t.arb.supply = if s.arb.supply = .standby then .warming else s.arb.supply)
    ∧ (t.arb.warmUpCount = if s.arb.supply = .standby then s.arb.warmUpFrames else s.arb.warmUpCount)
    ∧ (t.arb.standbyCount = if s.arb.reloadMask.getLsbD 2 then s.arb.standbyFrames else s.arb.standbyCount)
    ∧ (∀ m, m ≠ l → t.row m = s.row m)
    ∧ (∀ φ, at_once → s.search e = some φ → t.row l = some { e with state := .placed φ }
        ∧ t.arb.placedOrder = s.arb.placedOrder ++ [l] ∧ t.arb.waitQueue = s.arb.waitQueue
        ∧ ∀ (c : Channel) (cs : Fin 120), (t.arb.profile.get c).get cs
            = (s.arb.profile.get c).get cs + s.loadAt e φ c cs.val)
    ∧ ((¬at_once ∨ s.search e = none) → t.row l = some e ∧ t.arb.placedOrder = s.arb.placedOrder
        ∧ t.arb.profile = s.arb.profile
        ∧ (e.cls = .ordinary → t.arb.waitQueue = s.arb.waitQueue ++ [l])
        ∧ (e.cls = .alarm → t.arb.waitQueue =
            (s.arb.waitQueue.filter s.alarmEntry) ++ [l] ++ s.arb.waitQueue.filter fun m => !s.alarmEntry m))

/-! ### The ring engine, the drive, the dial plan and the calibrator's results -/

/-- The line drive (R65): PARTYTEST, then RING, then the base drive of each call state (R66). The ring engine's step of a
placed line (R148 to R151): QUIET with everything at 0, or RINGING with the drive of the voice in use, a new burst or the
same one. -/
def Obligations.RingEngineStepsPlacedLines : Prop :=
  (∀ x : Line,
    (x.test.running = true → x.drive = .partyTest)
    ∧ (∀ p d, x.test.running = false → x.play = some p → p.drive = some d → x.drive = .ring d.side d.channel)
    ∧ (x.test.running = false → (∀ p, x.play = some p → p.drive = none) →
        ((x.call = .disabled ∨ x.call = .lockout) → x.drive = .park)
        ∧ ((x.call = .idle ∨ x.call = .ident ∨ x.call = .termRing ∨ x.call = .alarmRing ∨ x.call = .revertRing
            ∨ x.call = .revertCheck ∨ x.call = .revertTalk ∨ x.call = .calibrating ∨ x.call = .exchWait) →
            x.drive = .feed .none)
        ∧ (x.call = .dial → x.drive = .feed (if x.dialBegun = true then .none else .dial))
        ∧ (x.call = .revertTone → x.drive = .feed .revert) ∧ (x.call = .reorder → x.drive = .feed .reorder)
        ∧ (x.call = .exchange → x.drive = .exchange) ∧ (x.call = .test → x.drive = .testAccess)))
  ∧ ∀ (l : LineNo) (e : Entry) (φ : Nat) (s : State), s.row l = some e → e.state = .placed φ → φ < 120 →
    let x := s.line l
    let before : Play := x.play.getD ⟨none, 0, 0, 0, e.reqType != .test, 0, 0, 0⟩
    let p := (s.timebase.cycleStep + 120 - φ) % 120
    let v := match e.voiceB with
      | none => e.voiceA
      | some b => if p < 60 then e.voiceA else b
    let on := s.patternOn v.pattern (p % 60)
    let armed := before.armed || !on || !s.patternOn v.pattern ((p + 59) % 60)
    let side := if x.opts.getLsbD 1 then v.side.reversed else v.side
    let rings := on = true ∧ armed = true ∧ x.hook.state ≠ .offhook ∧ x.hook.state ≠ .brk
      ∧ s.arb.faults.getLsbD v.channel.val = false ∧ x.test.running = false
    let t := s.doWork (.ring l)
    (rings → t = s.setLine l { x with play := some (
        if before.drive = some ⟨side, v.channel⟩ then
          { before with armed := armed, burstStep := min 255 (before.burstStep + 1) }
        else ⟨some ⟨side, v.channel⟩, 1, 0, 0, armed, 0, 0, 0⟩) }
      ∧ (x.test.running = false → (t.line l).drive = .ring side v.channel))
    ∧ (¬rings → (on = true ∨ e.reqType ≠ .test ∨ before.drive = none) →
        t = s.setLine l { x with play := some ⟨none, 0, 0, 0, armed, 0, 0, 0⟩ })
    ∧ (on = false → e.reqType = .test → before.drive ≠ none → t =
        (s.setLine l { x with play := some ⟨none, 0, 0, 0, armed, 0, 0, 0⟩ }).burstEnd l before.measured
          (before.acSum / before.measured) (before.dcSum / before.measured))

/-- The dial plan's judgement (R100) and the revert checks (R102, R103). -/
def Obligations.DialPlanJudgesTheDigits : Prop :=
  (∀ (plan : Tab 12 DialEntry) (ds : List Digit), ds ≠ [] →
    let completes := fun (i : Fin 12) => (plan.get i).enabled = true
      ∧ (plan.get i).pre.length + (plan.get i).tail = ds.length ∧ (plan.get i).pre <+: ds
    let continues := fun (i : Fin 12) => (plan.get i).enabled = true
      ∧ ds.length < (plan.get i).pre.length + (plan.get i).tail
      ∧ ((plan.get i).pre <+: ds ∨ ds <+: (plan.get i).pre)
    (∀ i, completes i → (∀ j, j < i → ¬completes j) → judgeDigits plan ds = .complete (plan.get i).action)
    ∧ ((∀ i, ¬completes i) → (∃ i, continues i) → judgeDigits plan ds = .collect)
    ∧ ((∀ i, ¬completes i) → (∀ i, ¬continues i) → judgeDigits plan ds = .unmatched))
  ∧ ∀ (l : LineNo) (called : Option (LineNo × Slot)) (s : State) (rec : Record), (s.line l).record = some rec →
    (s.line l).call = .dial →
    s.revertJudged (s.revertChecks l called) l rec (s.line l).digits called

/-- The burst-end notice of a calibration run (R167, R170, R171, R172), with the CALIBRATION report of each ending (R199).
Empty: the run fails SUPPLY. With a channel of the mask still to measure: WAIT for the lowest such channel, or SUPPLY when
its window capacities are too small (R165). At the last channel: DONE with its baseline, loads and threshold, LEAKY judged
against the new baseline and reported if it changed (R58), or the first failure; that the report of an OVERLOAD names the lowest overloaded channel is the model's reading (log 14). -/
def Obligations.CalibrationResultsWrittenTogether : Prop :=
  ∀ (l : LineNo) (run : Run) (n ac dc : Nat) (s : State), (s.line l).run = some run → (s.line l).call = .calibrating →
    let t := s.burstEnd l n ac dc
    let measured : Run := { run with meas := run.meas.set run.channel (some (ac, dc)) }
    let ended := (t.line l).call = .idle ∧ s.tells t l none
    let due := fun c : Channel => run.mask.getLsbD c.val = true ∧ run.channel < c ∧ run.meas.get c = none
    (n = 0 → ended ∧ s.runFailed t l run .supply)
    ∧ (1 ≤ n → ∀ f, due f → (∀ c, due c → f ≤ c) →
        let load := if 0 < (s.line l).loads.get f then (s.line l).loads.get f else s.arb.assumedLoad
        let small := ∀ w, (s.arb.caps.get f).get w < load
        (small → ended ∧ s.runFailed t l { measured with phase := .wait, channel := f } .supply)
        ∧ (¬small → t.testRequested l measured f load))
    ∧ ∀ a, run.leakAvg = some a → 1 ≤ n → 1 ≤ s.arb.unitCurrent → run.mask.getLsbD run.channel.val = true →
      (∀ c, run.mask.getLsbD c.val = true → c ≠ run.channel → run.meas.get c ≠ none) →
      (∀ c, run.mask.getLsbD c.val = false → run.meas.get c = none) → run.meas.get run.channel = none →
      let got := measured.meas.get
      let load := fun c => match got c with
        | none => (s.line l).loads.get c
        | some (m, _) => (m + s.arb.unitCurrent - 1) / s.arb.unitCurrent
      let heavy := fun c => got c ≠ none ∧ 40 < load c
      let silent := ∀ c, got c ≠ none → load c = 0
      t.row l = none ∧ (t.line l).run = none ∧ ended
        ∧ (∀ c, heavy c → (∀ d, heavy d → c ≤ d) → s.runFailed t l { measured with channel := c } .overload)
        ∧ ((∀ c, ¬heavy c) → silent → s.runFailed t l measured .noRinger)
        ∧ ((∀ c, ¬heavy c) → ¬silent → ∀ rise : Nat, (∃ c m d, got c = some (m, d) ∧ rise = d - a) →
            (∀ c m d, got c = some (m, d) → d - a ≤ rise) →
            (run.method = .midpoint → s.settings.answerCurrent < rise + 20 → s.runFailed t l measured .margin)
            ∧ ∀ th : Nat, ((run.method = .midpoint ∧ rise + 20 ≤ s.settings.answerCurrent
                  ∧ th = (rise + s.settings.answerCurrent) / 2) ∨ (run.method = .hold ∧ run.hold = some th)) →
              ((∃ lo hi, run.bounds = some (lo, hi) ∧ (th < lo ∨ hi < th)) → s.runFailed t l measured .bounds)
              ∧ ((∀ lo hi, run.bounds = some (lo, hi) → lo ≤ th ∧ th ≤ hi) →
                  (t.line l).calStatus = .done ∧ (t.line l).calCause = none ∧ (t.line l).baseline = a
                    ∧ (t.line l).tripThreshold = th ∧ (∀ c, (t.line l).loads.get c = load c)
                    ∧ s.runReported t l measured
                    ∧ (t.line l).leaky = (if (s.line l).leakLimit < a then true
                        else if a + 5 ≤ (s.line l).leakLimit then false else (s.line l).leaky)
                    ∧ ((t.line l).leaky ≠ (s.line l).leaky → t.marked s.link.mask .lineFault l [lineByte l,
                        if (t.line l).leaky then 2 else 3, flagByte (s.line l).fitted, flagByte (t.line l).leaky])
                    ∧ ((t.line l).leaky = (s.line l).leaky →
                        (t.link.slots.get (State.lineEntry l)).get 8 = (s.link.slots.get (State.lineEntry l)).get 8
                        ∧ kindIn .lineFault (t.link.pendingSets.get (State.lineEntry l))
                            = kindIn .lineFault (s.link.pendingSets.get (State.lineEntry l)))))

/-! ### Invariants -/

/-- The laws of the link, the lock, the cadence table, the numbering, the option flags, the plans and the arbiter hold
after hard reset. -/
def Obligations.LawsHoldAfterHardReset : Prop :=
  State.reset.linkLaw ∧ State.reset.lockLaw ∧ State.reset.cadenceLaw ∧ State.reset.numberingLaw
    ∧ State.reset.enabledLaw ∧ State.reset.planLaw ∧ State.reset.arbiterLaw ∧ State.reset.entryLaw
    ∧ State.reset.profileLaw ∧ State.reset.countLaw

/-- Every step keeps the link's law (R175): at most 4 frames, at most 4 replies, no pending report of a disabled kind. -/
def Obligations.LinkLawIsKept : Prop := ∀ s t : State, s.linkLaw → step s = .next t → t.linkLaw

/-- Every step keeps the laws of the lock (R8), of the cadence table and the edit buffer (R22 to R24), of the numbering
(R18), of ENABLED (R2), and of the plans (R15). -/
def Obligations.PlanLawsAreKept : Prop :=
  ∀ s t : State, s.lockLaw → s.cadenceLaw → s.numberingLaw → s.enabledLaw → s.planLaw → step s = .next t →
    t.lockLaw ∧ t.cadenceLaw ∧ t.numberingLaw ∧ t.enabledLaw ∧ t.planLaw

/-- No step but a hard reset changes a locked line's tables, its flags but ENABLED, its numbering range, or its lock
(R8). -/
def Obligations.LockedLinesAreFrozen : Prop :=
  ∀ (s t : State) (l : LineNo), s.lockLaw → (s.line l).lock = true →
    (∀ straps rest, s.pending ≠ .hardReset straps :: rest) → step s = .next t →
    (t.line l).frozenPart = (s.line l).frozenPart ∧ t.range l = s.range l

/-- Every step keeps the arbiter's law (R127, R131, R138) and the entry law (R124, R162). -/
def Obligations.ArbiterLawsAreKept : Prop :=
  ∀ s t : State, s.arbiterLaw → s.entryLaw → step s = .next t → t.arbiterLaw ∧ t.entryLaw

/-- Every step keeps the profile's law (R126): the profile is the sum of the loads of the PLACED voices that are ON. -/
def Obligations.ProfileIsTheSumOfLoads : Prop :=
  ∀ s t : State, s.arbiterLaw → s.entryLaw → s.profileLaw → step s = .next t → t.profileLaw

/-- Every step keeps the counts of the supervisors and of the ring engine in their ranges (R43, R52, R56, R148), and the
scan count, which stands at 9 when the step event is due (R31; `stepDue` is the model's own, log 3); and no line out of IDLE
has a tracking window begun (R56; log 13). -/
def Obligations.CountsStayInRange : Prop := ∀ s t : State, s.countLaw → step s = .next t → t.countLaw
end

