-- ==== Sys2Proof/Laws/State.lean ====
section
/-! SUPPORT. What each update of the state leaves of each field, true by definition, so that no later proof unfolds a
record update; and what a read of a line or a row gives after a write of one. -/

namespace Sys2Proof.Machine.State

variable (s : State)

/-! ### `setLine` -/

@[simp] theorem setLine_lines (l : LineNo) (x : Line) : (s.setLine l x).lines = s.lines.set l x := rfl
@[simp] theorem setLine_numbering (l : LineNo) (x : Line) : (s.setLine l x).numbering = s.numbering := rfl
@[simp] theorem setLine_cadence (l : LineNo) (x : Line) : (s.setLine l x).cadence = s.cadence := rfl
@[simp] theorem setLine_edit (l : LineNo) (x : Line) : (s.setLine l x).edit = s.edit := rfl
@[simp] theorem setLine_dialPlan (l : LineNo) (x : Line) : (s.setLine l x).dialPlan = s.dialPlan := rfl
@[simp] theorem setLine_settings (l : LineNo) (x : Line) : (s.setLine l x).settings = s.settings := rfl
@[simp] theorem setLine_timebase (l : LineNo) (x : Line) : (s.setLine l x).timebase = s.timebase := rfl
@[simp] theorem setLine_arb (l : LineNo) (x : Line) : (s.setLine l x).arb = s.arb := rfl
@[simp] theorem setLine_link (l : LineNo) (x : Line) : (s.setLine l x).link = s.link := rfl
@[simp] theorem setLine_due (l : LineNo) (x : Line) : (s.setLine l x).due = s.due := rfl
@[simp] theorem setLine_boundary (l : LineNo) (x : Line) : (s.setLine l x).boundary = s.boundary := rfl
@[simp] theorem setLine_pending (l : LineNo) (x : Line) : (s.setLine l x).pending = s.pending := rfl

/-! ### `updLine` -/

@[simp] theorem updLine_lines (l : LineNo) (f : Line → Line) : (s.updLine l f).lines = s.lines.set l (f (s.line l)) := rfl
@[simp] theorem updLine_numbering (l : LineNo) (f : Line → Line) : (s.updLine l f).numbering = s.numbering := rfl
@[simp] theorem updLine_cadence (l : LineNo) (f : Line → Line) : (s.updLine l f).cadence = s.cadence := rfl
@[simp] theorem updLine_edit (l : LineNo) (f : Line → Line) : (s.updLine l f).edit = s.edit := rfl
@[simp] theorem updLine_dialPlan (l : LineNo) (f : Line → Line) : (s.updLine l f).dialPlan = s.dialPlan := rfl
@[simp] theorem updLine_settings (l : LineNo) (f : Line → Line) : (s.updLine l f).settings = s.settings := rfl
@[simp] theorem updLine_timebase (l : LineNo) (f : Line → Line) : (s.updLine l f).timebase = s.timebase := rfl
@[simp] theorem updLine_arb (l : LineNo) (f : Line → Line) : (s.updLine l f).arb = s.arb := rfl
@[simp] theorem updLine_link (l : LineNo) (f : Line → Line) : (s.updLine l f).link = s.link := rfl
@[simp] theorem updLine_due (l : LineNo) (f : Line → Line) : (s.updLine l f).due = s.due := rfl
@[simp] theorem updLine_boundary (l : LineNo) (f : Line → Line) : (s.updLine l f).boundary = s.boundary := rfl
@[simp] theorem updLine_pending (l : LineNo) (f : Line → Line) : (s.updLine l f).pending = s.pending := rfl

/-! ### `updArb` -/

@[simp] theorem updArb_lines (f : Arbiter → Arbiter) : (s.updArb f).lines = s.lines := rfl
@[simp] theorem updArb_numbering (f : Arbiter → Arbiter) : (s.updArb f).numbering = s.numbering := rfl
@[simp] theorem updArb_cadence (f : Arbiter → Arbiter) : (s.updArb f).cadence = s.cadence := rfl
@[simp] theorem updArb_edit (f : Arbiter → Arbiter) : (s.updArb f).edit = s.edit := rfl
@[simp] theorem updArb_dialPlan (f : Arbiter → Arbiter) : (s.updArb f).dialPlan = s.dialPlan := rfl
@[simp] theorem updArb_settings (f : Arbiter → Arbiter) : (s.updArb f).settings = s.settings := rfl
@[simp] theorem updArb_timebase (f : Arbiter → Arbiter) : (s.updArb f).timebase = s.timebase := rfl
@[simp] theorem updArb_arb (f : Arbiter → Arbiter) : (s.updArb f).arb = f s.arb := rfl
@[simp] theorem updArb_link (f : Arbiter → Arbiter) : (s.updArb f).link = s.link := rfl
@[simp] theorem updArb_due (f : Arbiter → Arbiter) : (s.updArb f).due = s.due := rfl
@[simp] theorem updArb_boundary (f : Arbiter → Arbiter) : (s.updArb f).boundary = s.boundary := rfl
@[simp] theorem updArb_pending (f : Arbiter → Arbiter) : (s.updArb f).pending = s.pending := rfl

/-! ### `updTimebase` -/

@[simp] theorem updTimebase_lines (f : Timebase → Timebase) : (s.updTimebase f).lines = s.lines := rfl
@[simp] theorem updTimebase_numbering (f : Timebase → Timebase) : (s.updTimebase f).numbering = s.numbering := rfl
@[simp] theorem updTimebase_cadence (f : Timebase → Timebase) : (s.updTimebase f).cadence = s.cadence := rfl
@[simp] theorem updTimebase_edit (f : Timebase → Timebase) : (s.updTimebase f).edit = s.edit := rfl
@[simp] theorem updTimebase_dialPlan (f : Timebase → Timebase) : (s.updTimebase f).dialPlan = s.dialPlan := rfl
@[simp] theorem updTimebase_settings (f : Timebase → Timebase) : (s.updTimebase f).settings = s.settings := rfl
@[simp] theorem updTimebase_timebase (f : Timebase → Timebase) : (s.updTimebase f).timebase = f s.timebase := rfl
@[simp] theorem updTimebase_arb (f : Timebase → Timebase) : (s.updTimebase f).arb = s.arb := rfl
@[simp] theorem updTimebase_link (f : Timebase → Timebase) : (s.updTimebase f).link = s.link := rfl
@[simp] theorem updTimebase_due (f : Timebase → Timebase) : (s.updTimebase f).due = s.due := rfl
@[simp] theorem updTimebase_boundary (f : Timebase → Timebase) : (s.updTimebase f).boundary = s.boundary := rfl
@[simp] theorem updTimebase_pending (f : Timebase → Timebase) : (s.updTimebase f).pending = s.pending := rfl

/-! ### `updLink` -/

@[simp] theorem updLink_lines (f : Link → Link) : (s.updLink f).lines = s.lines := rfl
@[simp] theorem updLink_numbering (f : Link → Link) : (s.updLink f).numbering = s.numbering := rfl
@[simp] theorem updLink_cadence (f : Link → Link) : (s.updLink f).cadence = s.cadence := rfl
@[simp] theorem updLink_edit (f : Link → Link) : (s.updLink f).edit = s.edit := rfl
@[simp] theorem updLink_dialPlan (f : Link → Link) : (s.updLink f).dialPlan = s.dialPlan := rfl
@[simp] theorem updLink_settings (f : Link → Link) : (s.updLink f).settings = s.settings := rfl
@[simp] theorem updLink_timebase (f : Link → Link) : (s.updLink f).timebase = s.timebase := rfl
@[simp] theorem updLink_arb (f : Link → Link) : (s.updLink f).arb = s.arb := rfl
@[simp] theorem updLink_link (f : Link → Link) : (s.updLink f).link = f s.link := rfl
@[simp] theorem updLink_due (f : Link → Link) : (s.updLink f).due = s.due := rfl
@[simp] theorem updLink_boundary (f : Link → Link) : (s.updLink f).boundary = s.boundary := rfl
@[simp] theorem updLink_pending (f : Link → Link) : (s.updLink f).pending = s.pending := rfl

/-! ### `setRow` -/

@[simp] theorem setRow_lines (l : LineNo) (e : Option Entry) : (s.setRow l e).lines = s.lines := rfl
@[simp] theorem setRow_numbering (l : LineNo) (e : Option Entry) : (s.setRow l e).numbering = s.numbering := rfl
@[simp] theorem setRow_cadence (l : LineNo) (e : Option Entry) : (s.setRow l e).cadence = s.cadence := rfl
@[simp] theorem setRow_edit (l : LineNo) (e : Option Entry) : (s.setRow l e).edit = s.edit := rfl
@[simp] theorem setRow_dialPlan (l : LineNo) (e : Option Entry) : (s.setRow l e).dialPlan = s.dialPlan := rfl
@[simp] theorem setRow_settings (l : LineNo) (e : Option Entry) : (s.setRow l e).settings = s.settings := rfl
@[simp] theorem setRow_timebase (l : LineNo) (e : Option Entry) : (s.setRow l e).timebase = s.timebase := rfl
@[simp] theorem setRow_arb (l : LineNo) (e : Option Entry) : (s.setRow l e).arb = { s.arb with rows := s.arb.rows.set l e } := rfl
@[simp] theorem setRow_link (l : LineNo) (e : Option Entry) : (s.setRow l e).link = s.link := rfl
@[simp] theorem setRow_due (l : LineNo) (e : Option Entry) : (s.setRow l e).due = s.due := rfl
@[simp] theorem setRow_boundary (l : LineNo) (e : Option Entry) : (s.setRow l e).boundary = s.boundary := rfl
@[simp] theorem setRow_pending (l : LineNo) (e : Option Entry) : (s.setRow l e).pending = s.pending := rfl

/-! ### `withPending` -/

@[simp] theorem withPending_lines (q : List Instr) : (s.withPending q).lines = s.lines := rfl
@[simp] theorem withPending_numbering (q : List Instr) : (s.withPending q).numbering = s.numbering := rfl
@[simp] theorem withPending_cadence (q : List Instr) : (s.withPending q).cadence = s.cadence := rfl
@[simp] theorem withPending_edit (q : List Instr) : (s.withPending q).edit = s.edit := rfl
@[simp] theorem withPending_dialPlan (q : List Instr) : (s.withPending q).dialPlan = s.dialPlan := rfl
@[simp] theorem withPending_settings (q : List Instr) : (s.withPending q).settings = s.settings := rfl
@[simp] theorem withPending_timebase (q : List Instr) : (s.withPending q).timebase = s.timebase := rfl
@[simp] theorem withPending_arb (q : List Instr) : (s.withPending q).arb = s.arb := rfl
@[simp] theorem withPending_link (q : List Instr) : (s.withPending q).link = s.link := rfl
@[simp] theorem withPending_due (q : List Instr) : (s.withPending q).due = s.due := rfl
@[simp] theorem withPending_boundary (q : List Instr) : (s.withPending q).boundary = s.boundary := rfl
@[simp] theorem withPending_pending (q : List Instr) : (s.withPending q).pending = q := rfl

/-! ### `leftQueue` -/

@[simp] theorem leftQueue_lines (l : LineNo) : (s.leftQueue l).lines = s.lines := rfl
@[simp] theorem leftQueue_numbering (l : LineNo) : (s.leftQueue l).numbering = s.numbering := rfl
@[simp] theorem leftQueue_cadence (l : LineNo) : (s.leftQueue l).cadence = s.cadence := rfl
@[simp] theorem leftQueue_edit (l : LineNo) : (s.leftQueue l).edit = s.edit := rfl
@[simp] theorem leftQueue_dialPlan (l : LineNo) : (s.leftQueue l).dialPlan = s.dialPlan := rfl
@[simp] theorem leftQueue_settings (l : LineNo) : (s.leftQueue l).settings = s.settings := rfl
@[simp] theorem leftQueue_timebase (l : LineNo) : (s.leftQueue l).timebase = s.timebase := rfl
@[simp] theorem leftQueue_arb (l : LineNo) : (s.leftQueue l).arb = s.arb := rfl
@[simp] theorem leftQueue_link (l : LineNo) : (s.leftQueue l).link = s.link := rfl
@[simp] theorem leftQueue_due (l : LineNo) : (s.leftQueue l).due = s.due := rfl
@[simp] theorem leftQueue_pending (l : LineNo) : (s.leftQueue l).pending = s.pending := rfl
@[simp] theorem leftQueue_boundary (l : LineNo) : (s.leftQueue l).boundary = s.boundary.map fun b => b.without l := rfl
@[simp] theorem line_leftQueue (l m : LineNo) : (s.leftQueue l).line m = s.line m := rfl
@[simp] theorem row_leftQueue (l m : LineNo) : (s.leftQueue l).row m = s.row m := rfl

/-! ### Marks -/

/-- A marking changes the link alone. -/
theorem mark_eq (k : ReportKind) (e : Fin 17) (d : List Byte) : s.mark k e d = { s with link := (s.mark k e d).link } := by
  unfold mark
  split <;> rfl

@[simp] theorem mark_lines (k : ReportKind) (e : Fin 17) (d : List Byte) : (s.mark k e d).lines = s.lines := by
  rw [mark_eq]

@[simp] theorem mark_numbering (k : ReportKind) (e : Fin 17) (d : List Byte) : (s.mark k e d).numbering = s.numbering := by
  rw [mark_eq]

@[simp] theorem mark_cadence (k : ReportKind) (e : Fin 17) (d : List Byte) : (s.mark k e d).cadence = s.cadence := by
  rw [mark_eq]

@[simp] theorem mark_edit (k : ReportKind) (e : Fin 17) (d : List Byte) : (s.mark k e d).edit = s.edit := by
  rw [mark_eq]

@[simp] theorem mark_dialPlan (k : ReportKind) (e : Fin 17) (d : List Byte) : (s.mark k e d).dialPlan = s.dialPlan := by
  rw [mark_eq]

@[simp] theorem mark_settings (k : ReportKind) (e : Fin 17) (d : List Byte) : (s.mark k e d).settings = s.settings := by
  rw [mark_eq]

@[simp] theorem mark_timebase (k : ReportKind) (e : Fin 17) (d : List Byte) : (s.mark k e d).timebase = s.timebase := by
  rw [mark_eq]

@[simp] theorem mark_arb (k : ReportKind) (e : Fin 17) (d : List Byte) : (s.mark k e d).arb = s.arb := by
  rw [mark_eq]

@[simp] theorem mark_due (k : ReportKind) (e : Fin 17) (d : List Byte) : (s.mark k e d).due = s.due := by
  rw [mark_eq]

@[simp] theorem mark_boundary (k : ReportKind) (e : Fin 17) (d : List Byte) : (s.mark k e d).boundary = s.boundary := by
  rw [mark_eq]

@[simp] theorem mark_pending (k : ReportKind) (e : Fin 17) (d : List Byte) : (s.mark k e d).pending = s.pending := by
  rw [mark_eq]

@[simp] theorem markLine_lines (k : ReportKind) (l : LineNo) (d : List Byte) : (s.markLine k l d).lines = s.lines := by
  simp [markLine]

@[simp] theorem markLine_numbering (k : ReportKind) (l : LineNo) (d : List Byte) : (s.markLine k l d).numbering = s.numbering := by
  simp [markLine]

@[simp] theorem markLine_cadence (k : ReportKind) (l : LineNo) (d : List Byte) : (s.markLine k l d).cadence = s.cadence := by
  simp [markLine]

@[simp] theorem markLine_edit (k : ReportKind) (l : LineNo) (d : List Byte) : (s.markLine k l d).edit = s.edit := by
  simp [markLine]

@[simp] theorem markLine_dialPlan (k : ReportKind) (l : LineNo) (d : List Byte) : (s.markLine k l d).dialPlan = s.dialPlan := by
  simp [markLine]

@[simp] theorem markLine_settings (k : ReportKind) (l : LineNo) (d : List Byte) : (s.markLine k l d).settings = s.settings := by
  simp [markLine]

@[simp] theorem markLine_timebase (k : ReportKind) (l : LineNo) (d : List Byte) : (s.markLine k l d).timebase = s.timebase := by
  simp [markLine]

@[simp] theorem markLine_arb (k : ReportKind) (l : LineNo) (d : List Byte) : (s.markLine k l d).arb = s.arb := by
  simp [markLine]

@[simp] theorem markLine_due (k : ReportKind) (l : LineNo) (d : List Byte) : (s.markLine k l d).due = s.due := by
  simp [markLine]

@[simp] theorem markLine_boundary (k : ReportKind) (l : LineNo) (d : List Byte) : (s.markLine k l d).boundary = s.boundary := by
  simp [markLine]

@[simp] theorem markLine_pending (k : ReportKind) (l : LineNo) (d : List Byte) : (s.markLine k l d).pending = s.pending := by
  simp [markLine]

@[simp] theorem markDevice_lines (k : ReportKind) (d : List Byte) : (s.markDevice k d).lines = s.lines := by
  simp [markDevice]

@[simp] theorem markDevice_numbering (k : ReportKind) (d : List Byte) : (s.markDevice k d).numbering = s.numbering := by
  simp [markDevice]

@[simp] theorem markDevice_cadence (k : ReportKind) (d : List Byte) : (s.markDevice k d).cadence = s.cadence := by
  simp [markDevice]

@[simp] theorem markDevice_edit (k : ReportKind) (d : List Byte) : (s.markDevice k d).edit = s.edit := by
  simp [markDevice]

@[simp] theorem markDevice_dialPlan (k : ReportKind) (d : List Byte) : (s.markDevice k d).dialPlan = s.dialPlan := by
  simp [markDevice]

@[simp] theorem markDevice_settings (k : ReportKind) (d : List Byte) : (s.markDevice k d).settings = s.settings := by
  simp [markDevice]

@[simp] theorem markDevice_timebase (k : ReportKind) (d : List Byte) : (s.markDevice k d).timebase = s.timebase := by
  simp [markDevice]

@[simp] theorem markDevice_arb (k : ReportKind) (d : List Byte) : (s.markDevice k d).arb = s.arb := by
  simp [markDevice]

@[simp] theorem markDevice_due (k : ReportKind) (d : List Byte) : (s.markDevice k d).due = s.due := by
  simp [markDevice]

@[simp] theorem markDevice_boundary (k : ReportKind) (d : List Byte) : (s.markDevice k d).boundary = s.boundary := by
  simp [markDevice]

@[simp] theorem markDevice_pending (k : ReportKind) (d : List Byte) : (s.markDevice k d).pending = s.pending := by
  simp [markDevice]

/-! ### Reads after writes -/

@[simp] theorem line_setLine (l m : LineNo) (x : Line) : (s.setLine l x).line m = if m = l then x else s.line m := by
  simp [line, setLine, Tab.get_set]

@[simp] theorem line_updLine (l m : LineNo) (f : Line → Line) :
    (s.updLine l f).line m = if m = l then f (s.line l) else s.line m := by
  simp [updLine]

@[simp] theorem line_updArb (l : LineNo) (f : Arbiter → Arbiter) : (s.updArb f).line l = s.line l := rfl

@[simp] theorem line_updTimebase (l : LineNo) (f : Timebase → Timebase) : (s.updTimebase f).line l = s.line l := rfl

@[simp] theorem line_updLink (l : LineNo) (f : Link → Link) : (s.updLink f).line l = s.line l := rfl

@[simp] theorem line_setRow (l m : LineNo) (e : Option Entry) : (s.setRow m e).line l = s.line l := rfl

@[simp] theorem line_withPending (l : LineNo) (q : List Instr) : (s.withPending q).line l = s.line l := rfl

@[simp] theorem line_mark (k : ReportKind) (e : Fin 17) (d : List Byte) (l : LineNo) :
    (s.mark k e d).line l = s.line l := by
  simp [line]

@[simp] theorem line_markLine (k : ReportKind) (m : LineNo) (d : List Byte) (l : LineNo) :
    (s.markLine k m d).line l = s.line l := by
  simp [line]

@[simp] theorem line_markDevice (k : ReportKind) (d : List Byte) (l : LineNo) :
    (s.markDevice k d).line l = s.line l := by
  simp [line]

@[simp] theorem row_setLine (l m : LineNo) (x : Line) : (s.setLine l x).row m = s.row m := rfl

@[simp] theorem row_updLine (l m : LineNo) (f : Line → Line) : (s.updLine l f).row m = s.row m := rfl

@[simp] theorem row_setRow (l m : LineNo) (e : Option Entry) : (s.setRow l e).row m = if m = l then e else s.row m := by
  simp [row, Tab.get_set]

@[simp] theorem row_updTimebase (l : LineNo) (f : Timebase → Timebase) : (s.updTimebase f).row l = s.row l := rfl

@[simp] theorem row_updLink (l : LineNo) (f : Link → Link) : (s.updLink f).row l = s.row l := rfl

@[simp] theorem row_mark (k : ReportKind) (e : Fin 17) (d : List Byte) (l : LineNo) :
    (s.mark k e d).row l = s.row l := by
  simp [row]

@[simp] theorem row_markLine (k : ReportKind) (m : LineNo) (d : List Byte) (l : LineNo) :
    (s.markLine k m d).row l = s.row l := by
  simp [row]

@[simp] theorem row_markDevice (k : ReportKind) (d : List Byte) (l : LineNo) :
    (s.markDevice k d).row l = s.row l := by
  simp [row]

@[simp] theorem row_withPending (l : LineNo) (q : List Instr) : (s.withPending q).row l = s.row l := rfl

@[simp] theorem stamp_updLine (l : LineNo) (f : Line → Line) : (s.updLine l f).stamp = s.stamp := rfl

@[simp] theorem stamp_updArb (f : Arbiter → Arbiter) : (s.updArb f).stamp = s.stamp := rfl

@[simp] theorem stamp_updLink (f : Link → Link) : (s.updLink f).stamp = s.stamp := rfl

@[simp] theorem stamp_setRow (l : LineNo) (e : Option Entry) : (s.setRow l e).stamp = s.stamp := rfl

@[simp] theorem stamp_mark (k : ReportKind) (e : Fin 17) (d : List Byte) : (s.mark k e d).stamp = s.stamp := by
  simp [stamp]

@[simp] theorem stamp_markLine (k : ReportKind) (l : LineNo) (d : List Byte) : (s.markLine k l d).stamp = s.stamp := by
  simp [stamp]

@[simp] theorem stamp_markDevice (k : ReportKind) (d : List Byte) : (s.markDevice k d).stamp = s.stamp := by
  simp [stamp]

end Sys2Proof.Machine.State
end

