-- ==== Sys2Proof/Laws/Kept.lean ====
section
/-! SUPPORT. What the work of the call blocks leaves alone. `Kept s t` says that from `s` to `t` nothing changed but the
call, hook, baseline, load and run parts of lines, the arbiter's table, profile, lists and supply, and the marks of the
link. One lemma for each operation; an operation that keeps less has its own statement where it is used. -/

namespace Sys2Proof.Machine

/-- From `s` to `t` only the parts that the call blocks write have changed. -/
structure Kept (s t : State) : Prop where
  given : t.given = s.given
  arb : t.arb.given = s.arb.given
  link : t.link.core = s.link.core
  sets : s.link.setsLawful → t.link.setsLawful
  plan : ∀ l, (t.line l).plan = (s.line l).plan

namespace Kept

variable {s t u : State}

theorem refl (s : State) : Kept s s := ⟨rfl, rfl, rfl, id, fun _ => rfl⟩

theorem trans (h : Kept s t) (k : Kept t u) : Kept s u :=
  ⟨k.given.trans h.given, k.arb.trans h.arb, k.link.trans h.link, fun w => k.sets (h.sets w),
    fun l => (k.plan l).trans (h.plan l)⟩

theorem updLine (l : LineNo) (f : Line → Line) (h : (f (s.line l)).plan = (s.line l).plan) : Kept s (s.updLine l f) :=
  ⟨rfl, rfl, rfl, id, fun m => by
    rw [State.line_updLine]
    split
    · next e => rw [h, e]
    · rfl⟩

theorem updArb (f : Arbiter → Arbiter) (h : (f s.arb).given = s.arb.given) : Kept s (s.updArb f) :=
  ⟨rfl, h, rfl, id, fun _ => rfl⟩

theorem setRow (l : LineNo) (e : Option Entry) : Kept s (s.setRow l e) := updArb _ rfl

theorem boundary (b : Option Boundary) : Kept s { s with boundary := b } := ⟨rfl, rfl, rfl, id, fun _ => rfl⟩

/-- A set to which an enabled kind is added holds enabled kinds only, if it did. -/
theorem bits_ok (m p : BitVec 14) (k : ReportKind) (hk : kindIn k m = true) (hp : p &&& ~~~m = 0) :
    (p ||| k.bit) &&& ~~~m = 0 := by
  apply BitVec.eq_of_getLsbD_eq
  intro i hi
  have h1 := congrArg (fun x : BitVec 14 => x.getLsbD i) hp
  simp [hi] at h1
  simp [hi, ReportKind.bit]
  intro h2
  rcases h2 with h2 | h2
  · simpa using h1 h2
  · have : i = k.idx.val := by omega
    subst this
    simpa [kindIn] using hk

theorem mark (k : ReportKind) (e : Fin 17) (d : List Byte) : Kept s (s.mark k e d) := by
  unfold State.mark
  split
  · next hk =>
    refine ⟨rfl, rfl, rfl, ?_, fun _ => rfl⟩
    intro hs f
    simp only [State.updLink_link, Tab.get_set]
    split
    · next e' => exact bits_ok _ _ k hk (hs e)
    · exact hs f
  · exact refl s

theorem markLine (k : ReportKind) (l : LineNo) (d : List Byte) : Kept s (s.markLine k l d) := mark _ _ _

theorem markDevice (k : ReportKind) (d : List Byte) : Kept s (s.markDevice k d) := mark _ _ _

theorem markLineFault (l : LineNo) (c : LineFaultCause) : Kept s (s.markLineFault l c) := markLine _ _ _

theorem markSupply (ev : SupplyEvent) (c : Option Channel) : Kept s (s.markSupply ev c) := markDevice _ _

theorem markSync : Kept s s.markSync := markDevice _ _

/-- A fold of operations that keep. -/
theorem foldl {α : Type} (f : State → α → State) (h : ∀ u a, Kept u (f u a)) (as : List α) (s : State) :
    Kept s (as.foldl f s) := by
  induction as generalizing s with
  | nil => exact refl s
  | cons a as ih => exact (h s a).trans (ih (f s a))

/-! ### The arbiter -/

theorem markRing (l : LineNo) (ev : RingEvent) (c : Option SuspendCause) (e : Entry) (w p : Nat) :
    Kept s (s.markRing l ev c e w p) := markLine _ _ _

theorem placementNotice (l : LineNo) (e : Entry) : Kept s (s.placementNotice l e) := by
  unfold State.placementNotice
  split
  · exact updLine _ _ rfl
  all_goals exact refl s

theorem leftQueue (l : LineNo) : Kept s (s.leftQueue l) := boundary _

theorem placeEntry (l : LineNo) (e : Entry) (φ : Nat) : Kept s (s.placeEntry l e φ) := by
  unfold State.placeEntry
  dsimp only
  have h : Kept s (s.updArb fun a =>
      { a with
        rows := a.rows.set l (some (e.placedAt φ))
        profile := s.profileWith e φ
        placedOrder := a.placedOrder.filter (· != l) ++ [l]
        waitQueue := a.waitQueue.filter (· != l) }) := updArb _ rfl
  split
  · exact ((h.trans (placementNotice _ _)).trans (leftQueue _)).trans (markRing _ _ _ _ _ _)
  · exact (h.trans (placementNotice _ _)).trans (leftQueue _)

theorem joinWaiting (l : LineNo) : Kept s (s.joinWaiting l) := by
  unfold State.joinWaiting
  split <;> exact updArb _ rfl

theorem joinSuspended (ls : List LineNo) : Kept s (s.joinSuspended ls) := updArb _ rfl

theorem wakeSupply : Kept s s.wakeSupply :=
  (updArb (fun a : Arbiter => { a with supply := .warming, warmUpCount := a.warmUpFrames }) rfl).trans (markSupply _ _)

theorem reloadStandby (ev : StandbyEvent) : Kept s (s.reloadStandby ev) := by
  unfold State.reloadStandby
  split
  · exact updArb _ rfl
  · exact refl s

theorem standbyEvent (ev : StandbyEvent) : Kept s (s.standbyEvent ev) := by
  unfold State.standbyEvent
  dsimp only
  split
  · exact (reloadStandby _).trans wakeSupply
  · exact reloadStandby _

theorem tryAdmission (l : LineNo) (e : Entry) : Kept s (s.tryAdmission l e) := by
  unfold State.tryAdmission
  split
  · split
    · exact placeEntry _ _ _
    · exact joinWaiting _
  · exact joinWaiting _

theorem request (l : LineNo) (e : Entry) : Kept s (s.request l e) :=
  ((setRow _ _).trans (standbyEvent _)).trans (tryAdmission _ _)

theorem removeEntry (l : LineNo) : Kept s (s.removeEntry l) := by
  unfold State.removeEntry
  split
  · exact refl s
  · refine Kept.trans (Kept.trans (updArb _ ?_) (updLine l _ ?_)) (leftQueue _) <;> rfl

/-! ### Records and call states -/

theorem writeBaseline (l : LineNo) (b : Nat) : Kept s (s.writeBaseline l b) := by
  unfold State.writeBaseline
  dsimp only
  split
  · exact updLine _ _ rfl
  · exact Kept.trans (updLine _ _ rfl) (markLineFault _ _)

theorem updRecord (l : LineNo) (f : Record → Record) : Kept s (s.updRecord l f) := updLine _ _ rfl

theorem completeRecord (l : LineNo) (c : EndCause) : Kept s (s.completeRecord l c) := by
  unfold State.completeRecord
  split
  · exact refl s
  · exact Kept.trans (updLine _ _ rfl) (markLine _ _ _)

theorem markState (l : LineNo) (p : CallState) (c : Option EndCause) : Kept s (s.markState l p c) := markLine _ _ _

theorem putCall (l : LineNo) (n : CallState) : Kept s (s.putCall l n) := updLine _ _ rfl

theorem endCall (l : LineNo) (n : CallState) (c : EndCause) : Kept s (s.endCall l n c) := by
  unfold State.endCall
  dsimp only
  split
  · exact (completeRecord _ _).trans (putCall _ _)
  · exact ((completeRecord _ _).trans (putCall _ _)).trans (markState _ _ _)

theorem enter (l : LineNo) (n : CallState) : Kept s (s.enter l n) := by
  unfold State.enter
  dsimp only
  split
  · exact putCall _ _
  · exact (putCall _ _).trans (markState _ _ _)

theorem openCall (l : LineNo) (r : Record) : Kept s (s.openCall l r) := updLine _ _ rfl

theorem originate (l : LineNo) : Kept s (s.originate l) :=
  Kept.trans (Kept.trans (Kept.trans (openCall _ _) (updLine _ _ rfl)) (enter _ _)) (standbyEvent _)

/-! ### Calibration -/

theorem markCalibration (l : LineNo) (r : Run) : Kept s (s.markCalibration l r) := markLine _ _ _

theorem failRun (l : LineNo) (c : CalCause) : Kept s (s.failRun l c) := by
  unfold State.failRun
  split
  · exact refl s
  · exact Kept.trans (Kept.trans (removeEntry _) (updLine _ _ rfl)) (markCalibration _ _)

theorem failToIdle (l : LineNo) (c : CalCause) : Kept s (s.failToIdle l c) := by
  unfold State.failToIdle
  split
  · exact refl s
  · exact (failRun _ _).trans (enter _ _)

theorem completeRun (l : LineNo) (r : Run) (loads : Tab 4 Nat) (t : Nat) : Kept s (s.completeRun l r loads t) :=
  Kept.trans (Kept.trans (Kept.trans (updLine _ _ rfl) (writeBaseline _ _)) (markCalibration _ _)) (enter _ _)

theorem computeRun (l : LineNo) (r : Run) : Kept s (s.computeRun l r) := by
  unfold State.computeRun
  split
  · exact Kept.trans (updLine _ _ rfl) (failToIdle _ _)
  · exact completeRun _ _ _ _

theorem beginWait (l : LineNo) (f : Channel) : Kept s (s.beginWait l f) := by
  unfold State.beginWait
  split
  · exact refl s
  · dsimp only
    split
    · exact Kept.trans (updLine _ _ rfl) (failToIdle _ _)
    · exact Kept.trans (updLine _ _ rfl) (request _ _)

theorem burstEnd (l : LineNo) (n ac dc : Nat) : Kept s (s.burstEnd l n ac dc) := by
  unfold State.burstEnd
  split
  · exact refl s
  · dsimp only
    split
    · exact (removeEntry _).trans (failToIdle _ _)
    · split
      · exact Kept.trans (Kept.trans (removeEntry _) (updLine _ _ rfl)) (beginWait _ _)
      · exact Kept.trans (Kept.trans (removeEntry _) (updLine _ _ rfl)) (computeRun _ _)

theorem calWaitCount (l : LineNo) : Kept s (s.calWaitCount l) := by
  unfold State.calWaitCount
  split
  · exact refl s
  · split
    · exact refl s
    · exact refl s
    · dsimp only
      split
      · exact Kept.trans (updLine _ _ rfl) (failToIdle _ _)
      · exact updLine _ _ rfl

theorem leakScan (l : LineNo) (i : Nat) : Kept s (s.leakScan l i) := by
  unfold State.leakScan
  split
  · exact refl s
  · split
    · exact refl s
    · exact refl s
    · dsimp only
      split
      · exact updLine _ _ rfl
      · split
        · exact Kept.trans (updLine _ _ rfl) (failToIdle _ _)
        · split
          · exact updLine _ _ rfl
          · exact Kept.trans (Kept.trans (updLine _ _ rfl) (updLine _ _ rfl)) (beginWait _ _)

theorem calibrationLift (l : LineNo) (m : Manner) : Kept s (s.calibrationLift l m) := by
  unfold State.calibrationLift
  cases m
  · exact Kept.trans (Kept.trans (failRun _ _) (updLine _ _ rfl)) (originate _)
  · exact (failRun _ _).trans (originate _)

/-! ### Reverting calls -/

theorem enterExchWait (l : LineNo) : Kept s (s.enterExchWait l) := by
  unfold State.enterExchWait
  dsimp only
  split
  · exact Kept.trans (updLine _ _ rfl) (enter _ _)
  · exact Kept.trans (Kept.trans (updLine _ _ rfl) (enter _ _)) (markLine _ _ _)

theorem revertChecks (l : LineNo) (c : Option (LineNo × Slot)) : Kept s (s.revertChecks l c) := by
  unfold State.revertChecks
  dsimp only
  split
  · exact endCall _ _ _
  · split
    · exact endCall _ _ _
    · split
      · exact endCall _ _ _
      · split
        · exact (updRecord _ _).trans (endCall _ _ _)
        · split
          · exact (updRecord _ _).trans (endCall _ _ _)
          · split
            · exact (updRecord _ _).trans (endCall _ _ _)
            · exact ((updRecord _ _).trans (updRecord _ _)).trans (enter _ _)

theorem dialAction (l : LineNo) (a : Action) : Kept s (s.dialAction l a) := by
  unfold State.dialAction
  dsimp only
  split
  · exact enterExchWait _
  · exact endCall _ _ _
  · exact revertChecks _ _
  · exact revertChecks _ _

theorem consultDialPlan (l : LineNo) : Kept s (s.consultDialPlan l) := by
  unfold State.consultDialPlan
  split
  · exact refl s
  · exact dialAction _ _
  · split
    · exact enterExchWait _
    · exact endCall _ _ _

theorem revertHangup (l : LineNo) : Kept s (s.revertHangup l) := by
  unfold State.revertHangup
  split
  · exact endCall _ _ _
  · exact (enter _ _).trans (request _ _)

theorem revertLift (l : LineNo) (m : Manner) : Kept s (s.revertLift l m) :=
  Kept.trans (Kept.trans (removeEntry _) (updLine _ _ rfl)) (enter _ _)

theorem markAnswer (l : LineNo) (m : Manner) : Kept s (s.markAnswer l m) := by
  unfold State.markAnswer
  split
  · exact refl s
  · exact markLine _ _ _

theorem revertResult (l : LineNo) (r : TestResult) : Kept s (s.revertResult l r) := by
  unfold State.revertResult
  dsimp only
  split
  · split
    · exact (updRecord _ _).trans (enter _ _)
    · split
      · exact (updRecord _ _).trans (endCall _ _ _)
      · exact (updRecord _ _).trans (enter _ _)
  · exact ((updRecord _ _).trans (markAnswer _ _)).trans (enter _ _)

/-! ### Call control -/

theorem identify (l : LineNo) (r : TestResult) : Kept s (s.identify l r) :=
  ((updRecord _ _).trans (markLine _ _ _)).trans (enter _ _)

theorem handResult (l : LineNo) (r : TestResult) : Kept s (s.handResult l r) := by
  unfold State.handResult
  split
  · exact identify _ _
  · exact revertResult _ _
  all_goals exact refl s

theorem markDigits (l : LineNo) : Kept s (s.markDigits l) := markLine _ _ _

theorem callDigit (l : LineNo) (d : Digit) : Kept s (s.callDigit l d) := by
  unfold State.callDigit
  split
  · exact Kept.trans (updLine _ _ rfl) (consultDialPlan _)
  · exact updLine _ _ rfl
  · exact Kept.trans (updLine _ _ rfl) (markDigits _)
  all_goals exact refl s

theorem callDigitError (l : LineNo) : Kept s (s.callDigitError l) := by
  unfold State.callDigitError
  split
  · exact endCall _ _ _
  · exact updLine _ _ rfl
  · exact Kept.trans (updLine _ _ rfl) (markDigits _)
  all_goals exact refl s

theorem answer (l : LineNo) (m : Manner) : Kept s (s.answer l m) :=
  (((removeEntry _).trans (updRecord _ _)).trans (markAnswer _ _)).trans (enter _ _)

theorem alarmAnswer (l : LineNo) (m : Manner) : Kept s (s.alarmAnswer l m) := by
  unfold State.alarmAnswer
  dsimp only
  cases m
  · exact Kept.trans (Kept.trans (Kept.trans ((removeEntry _).trans (updRecord _ _)) (updLine _ _ rfl))
      (markAnswer _ _)) (enterExchWait _)
  · exact (((removeEntry _).trans (updRecord _ _)).trans (markAnswer _ _)).trans (enterExchWait _)

theorem lift (l : LineNo) (m : Manner) : Kept s (s.lift l m) := by
  unfold State.lift
  split
  · exact answer _ _
  · exact alarmAnswer _ _
  · exact revertLift _ _
  · exact calibrationLift _ _
  all_goals exact refl s

theorem callOffHook (l : LineNo) : Kept s (s.callOffHook l) := by
  unfold State.callOffHook
  split
  · exact originate _
  · exact lift _ _

theorem callOnHook (l : LineNo) : Kept s (s.callOnHook l) := by
  unfold State.callOnHook
  split
  all_goals first
    | with_reducible exact endCall _ _ _
    | with_reducible exact enter _ _
    | with_reducible exact revertHangup _
    | exact refl s

theorem callFlash (l : LineNo) : Kept s (s.callFlash l) := by
  unfold State.callFlash
  split
  · exact markLine _ _ _
  · exact refl s

theorem callPulse (l : LineNo) : Kept s (s.callPulse l) := by
  unfold State.callPulse
  split
  · exact updLine _ _ rfl
  · exact refl s

theorem handItem (l : LineNo) (i : HookItem) : Kept s (s.handItem l i) := by
  cases i
  · exact callOffHook _
  · exact callOnHook _
  · exact (callDigit _ _).trans (standbyEvent _)
  · exact (callDigitError _).trans (standbyEvent _)
  · exact callFlash _
  · exact callPulse _

theorem expiry (l : LineNo) : Kept s (s.expiry l) := by
  unfold State.expiry
  split
  all_goals first
    | with_reducible exact endCall _ _ _
    | with_reducible exact (removeEntry _).trans (endCall _ _ _)
    | with_reducible exact enter _ _
    | exact refl s

theorem callTimerStep (l : LineNo) : Kept s (s.callTimerStep l) := by
  unfold State.callTimerStep
  split
  · exact refl s
  · split
    · exact Kept.trans (updLine _ _ rfl) (expiry _)
    · exact updLine _ _ rfl

theorem startAlarm (l : LineNo) (v : Voice) (n : Nat) : Kept s (s.startAlarm l v n) :=
  Kept.trans (Kept.trans (Kept.trans (openCall _ _) (updLine _ _ rfl)) (enter _ _)) (request _ _)

theorem pendingAlarmStep (l : LineNo) : Kept s (s.pendingAlarmStep l) := by
  unfold State.pendingAlarmStep
  split
  · split
    · exact startAlarm _ _ _
    · exact Kept.trans (updLine _ _ rfl) (markState _ _ _)
  · exact refl s

theorem endAlarm (l : LineNo) : Kept s (s.endAlarm l) := (removeEntry _).trans (endCall _ _ _)

theorem alarmCountStep (l : LineNo) : Kept s (s.alarmCountStep l) := by
  unfold State.alarmCountStep
  split
  · dsimp only
    split
    · exact Kept.trans (updLine _ _ rfl) (endAlarm _)
    · exact updLine _ _ rfl
  · exact refl s

theorem disableLine (l : LineNo) : Kept s (s.disableLine l) := by
  unfold State.disableLine
  dsimp only
  refine Kept.trans ?_ (updLine _ _ rfl)
  refine Kept.trans ?_ (endCall _ _ _)
  refine Kept.trans ?_ (updLine _ _ rfl)
  exact (removeEntry _).trans (failRun _ _)

theorem enableLine (l : LineNo) : Kept s (s.enableLine l) := by
  unfold State.enableLine
  split
  · exact Kept.trans (updLine _ _ rfl) (enter _ _)
  · exact refl s

/-! ### Scans -/

theorem hookScan (l : LineNo) (r : Reading) : Kept s (s.hookScan l r) := by
  unfold State.hookScan
  dsimp only
  exact Kept.trans (updLine _ _ rfl) (foldl _ (fun u i => handItem l i) _ _)

theorem testScan (l : LineNo) (r : Reading) : Kept s (s.testScan l r) := by
  unfold State.testScan
  dsimp only
  split
  · exact updLine _ _ rfl
  · exact Kept.trans (updLine _ _ rfl) (handResult _ _)

theorem ringScan (l : LineNo) (r : Reading) (p : Play) : Kept s (s.ringScan l r p) := by
  unfold State.ringScan
  dsimp only
  split
  · exact Kept.trans (updLine _ _ rfl) (lift _ _)
  · exact updLine _ _ rfl

theorem trackScan (l : LineNo) (j : Bool) (i : Nat) : Kept s (s.trackScan l j i) := by
  unfold State.trackScan
  dsimp only
  split
  · split
    · exact updLine _ _ rfl
    · exact Kept.trans (updLine _ _ rfl) (writeBaseline _ _)
  · exact updLine _ _ rfl

theorem loopScan (l : LineNo) (r : Reading) : Kept s (s.loopScan l r) := by
  unfold State.loopScan
  dsimp only
  repeat' split
  all_goals first
    | exact testScan _ _
    | exact ringScan _ _ _
    | exact hookScan _ _
    | exact refl s

theorem fittedScan (l : LineNo) (r : Reading) : Kept s (s.fittedScan l r) :=
  ((loopScan _ _).trans (trackScan _ _ _)).trans (leakScan _ _)

/-! ### The frame boundary and the step event -/

theorem withdraw (l : LineNo) : Kept s (s.withdraw l) := by
  unfold State.withdraw
  split
  · exact refl s
  · refine Kept.trans (updArb _ ?_) (updLine l _ ?_) <;> rfl

theorem markSuspended (c : SuspendCause) (l : LineNo) : Kept s (s.markSuspended c l) := by
  unfold State.markSuspended
  split
  · exact refl s
  · exact markRing _ _ _ _ _ _

theorem suspensionNotice (l : LineNo) : Kept s (s.suspensionNotice l) := by
  unfold State.suspensionNotice
  split
  · exact refl s
  · split
    · exact failToIdle _ _
    · exact refl s

theorem suspendMany (ls : List LineNo) (c : SuspendCause) : Kept s (s.suspendMany ls c) := by
  unfold State.suspendMany
  dsimp only
  exact (((foldl _ (fun _ l => withdraw l) ls s).trans (joinSuspended ls)).trans
    (foldl _ (fun _ l => markSuspended c l) ls _)).trans (foldl _ (fun _ l => suspensionNotice l) ls _)

theorem evict : Kept s s.evict := suspendMany _ _

theorem supplyOn : Kept s s.supplyOn := by
  unfold State.supplyOn
  exact Kept.trans (updArb _ rfl) (markSupply _ _)

theorem warmUp : Kept s s.warmUp := by
  unfold State.warmUp
  split
  · exact refl s
  · exact refl s
  · split
    · exact supplyOn
    · exact updArb _ rfl

theorem walk (ls : List LineNo) : Kept s (s.walk ls) := by
  induction ls generalizing s with
  | nil => exact refl s
  | cons l ls ih =>
    unfold State.walk
    split
    · exact ih
    · split
      · exact ih
      · split
        · exact refl s
        · exact (placeEntry _ _ _).trans ih

theorem walkQueue : Kept s s.walkQueue := by
  unfold State.walkQueue
  split
  · exact walk _
  · exact refl s

theorem countWait (l : LineNo) : Kept s (s.countWait l) := by
  unfold State.countWait
  split
  · exact refl s
  · dsimp only
    split
    · exact (setRow _ _).trans (markRing _ _ _ _ _ _)
    · exact setRow _ _

theorem countWaits (ls : List LineNo) : Kept s (s.countWaits ls) := foldl _ (fun _ l => countWait l) _ _

theorem standbyCounting (b : Bool) : Kept s (s.standbyCounting b) := by
  unfold State.standbyCounting
  split
  · split
    · exact Kept.trans (updArb _ rfl) (markSupply _ _)
    · exact updArb _ rfl
  · exact refl s

theorem runStage (b : Boundary) : Kept s (s.runStage b) := by
  unfold State.runStage
  split
  · exact (boundary _).trans evict
  · exact (boundary _).trans warmUp
  · exact (boundary _).trans walkQueue
  · exact (boundary _).trans (countWaits _)
  · exact (boundary _).trans (standbyCounting _)

theorem runUpTo (g : Stage) (n : Nat) : Kept s (s.runUpTo g n) := by
  induction n generalizing s with
  | zero => exact refl s
  | succ n ih =>
    unfold State.runUpTo
    split
    · exact refl s
    · split
      · exact (runStage _).trans ih
      · exact refl s

theorem runThrough (g : Stage) : Kept s (s.runThrough g) := runUpTo _ _

theorem runBoundary : Kept s s.runBoundary := runThrough _

theorem endBurst (l : LineNo) (e : Entry) (p : Play) : Kept s (s.endBurst l e p) := by
  unfold State.endBurst
  split
  · exact burstEnd _ _ _ _
  · exact refl s

theorem playStep (l : LineNo) (e : Entry) (φ : Nat) (p : Play) : Kept s (s.playStep l e φ p) := by
  unfold State.playStep
  dsimp only
  split
  · exact Kept.trans (updLine _ _ rfl) (endBurst _ _ _)
  · split <;> exact updLine _ _ rfl

theorem ringStep (l : LineNo) : Kept s (s.ringStep l) := by
  unfold State.ringStep
  split
  · exact refl s
  · split
    · exact playStep _ _ _ _
    all_goals exact refl s

end Kept

end Sys2Proof.Machine
end

