-- ==== Sys2Proof/Laws/Carry.lean ====
section
/-! SUPPORT. What carrying out a command leaves alone: the receive assembler, the queues, the transmitter, the rate and
the sender's queue, for every command of the host. -/

namespace Sys2Proof.Machine

/-- The part of the link that no command of the host changes when it is carried out. -/
def Link.flow (k : Link) : Receiver × List Frame × List Frame × Option Frame × Rate :=
  (k.receiver, k.intake, k.replies, k.tx, k.rate)

/-- From `s` to `t` the flow of frames and the sender's queue are as they were, and the pending sets stay lawful. -/
structure Flows (s t : State) : Prop where
  flow : t.link.flow = s.link.flow
  sets : s.link.setsLawful → t.link.setsLawful
  pending : t.pending = s.pending

namespace Flows

variable {s t u : State}

theorem refl (s : State) : Flows s s := ⟨rfl, id, rfl⟩

theorem trans (h : Flows s t) (k : Flows t u) : Flows s u :=
  ⟨k.flow.trans h.flow, fun w => k.sets (h.sets w), k.pending.trans h.pending⟩

theorem of_kept (h : Kept s t) : Flows s t := by
  refine ⟨?_, h.sets, ?_⟩
  · have := h.link
    simp only [Link.core, Prod.mk.injEq] at this
    simp only [Link.flow, Prod.mk.injEq]
    tauto
  · have := h.given
    simp only [State.given, Prod.mk.injEq] at this
    tauto

theorem intake (h : Flows s t) : t.link.intake = s.link.intake := congrArg (·.2.1) h.flow

theorem replies (h : Flows s t) : t.link.replies = s.link.replies := congrArg (·.2.2.1) h.flow

theorem tx (h : Flows s t) : t.link.tx = s.link.tx := congrArg (·.2.2.2.1) h.flow

theorem receiver (h : Flows s t) : t.link.receiver = s.link.receiver := congrArg (·.1) h.flow

/-- An update that leaves the link and the queue alone. -/
theorem same (hl : t.link = s.link) (hp : t.pending = s.pending) : Flows s t := ⟨by rw [hl], by rw [hl]; exact id, hp⟩

/-- The lines of a set, taken one by one. -/
theorem forLines (f : LineNo → State → State × Status) (h : ∀ l u, Flows u (f l u).1) (ls : List LineNo) (s : State) :
    Flows s (Machine.forLines f ls s).1 := by
  induction ls generalizing s with
  | nil => exact refl s
  | cons l ls ih => exact (h l s).trans (ih _)

theorem takeOptions (l : LineNo) (o : BitVec 4) : Flows s (s.takeOptions l o) := by
  unfold State.takeOptions
  dsimp only
  have h : Flows s (s.updLine l fun x => { x with opts := o }) := same rfl rfl
  split
  · exact h.trans (of_kept (Kept.enableLine l))
  · split
    · exact h.trans (of_kept (Kept.disableLine l))
    · exact h

theorem lineOptionsAt (f : WriteForm) (v : BitVec 4) (l : LineNo) (s : State) :
    Flows s (Machine.lineOptionsAt f v l s).1 := by
  unfold Machine.lineOptionsAt
  dsimp only
  split
  · exact takeOptions l _
  · exact refl s

theorem lineLockAt (l : LineNo) (s : State) : Flows s (Machine.lineLockAt l s).1 := by
  unfold Machine.lineLockAt
  split
  · exact refl s
  · exact same rfl rfl

theorem alarmRingAt (n : Nat) (l : LineNo) (s : State) : Flows s (Machine.alarmRingAt n l s).1 := by
  unfold Machine.alarmRingAt
  split
  · exact refl s
  · split
    · exact refl s
    · split
      · exact of_kept (Kept.startAlarm _ _ _)
      · exact same rfl rfl

theorem alarmStopAt (l : LineNo) (s : State) : Flows s (Machine.alarmStopAt l s).1 := by
  unfold Machine.alarmStopAt
  dsimp only
  have h : Flows s (s.updLine l fun x => { x with alarmPending := none }) := same rfl rfl
  split
  · exact h.trans (of_kept (Kept.endAlarm l))
  · split
    · exact h
    · exact refl s

theorem ringParty (l : LineNo) (i : Slot) (n : Nat) : Flows s (s.ringParty l i n).1 := by
  unfold State.ringParty
  dsimp only
  repeat' split
  all_goals first
    | exact refl s
    | exact of_kept (Kept.trans (Kept.trans ((Kept.openCall _ _).trans (Kept.enter _ _)) (Kept.updLine _ _ rfl))
        (Kept.request _ _))

theorem softReset (s : State) : Flows s s.softReset := by
  refine ⟨rfl, fun _ e => ?_, rfl⟩
  simp [State.softReset, Link.softReset]

theorem reportMask (p : List Byte) : Flows s (s.carryReportMask p).1 := by
  refine ⟨rfl, fun _ e => ?_, rfl⟩
  simp only [State.carryReportMask, State.ok, State.updLink_link, Tab.get_build]
  rw [BitVec.and_assoc]
  simp

theorem timebaseSet (p : List Byte) : Flows s (s.carryTimebaseSet p).1 := by
  unfold State.carryTimebaseSet
  dsimp only
  split
  · exact refl s
  · exact Flows.trans (t := s.updTimebase fun t => t.withRole (Role.ofCode (byteAt p 0))) (same rfl rfl)
      (of_kept Kept.markSync)

theorem connectLine (l : LineNo) : Kept s (s.connectLine l) := by
  unfold State.connectLine
  dsimp only
  split
  · exact (Kept.updRecord _ _).trans (Kept.enter _ _)
  · exact ((Kept.updRecord _ _).trans (Kept.markDigits _)).trans (Kept.enter _ _)

theorem releaseLine (l : LineNo) : Kept s (s.releaseLine l) :=
  Kept.trans (Kept.trans (Kept.removeEntry _) (Kept.updLine _ _ rfl)) (Kept.endCall _ _ _)

/-- Carrying out a command leaves the flow of frames as it is (R179). -/
theorem carry (c : HostCmd) (p : List Byte) : Flows s (s.carry c p).1 := by
  cases c <;> simp only [State.carry]
  case softReset => exact softReset s
  case reportMask => exact reportMask p
  case timebaseSet => exact timebaseSet p
  case lineOptions => exact forLines _ (fun l u => lineOptionsAt _ _ l u) _ _
  case lineLock => exact forLines _ (fun l u => lineLockAt l u) _ _
  case alarmRing => exact forLines _ (fun l u => alarmRingAt _ l u) _ _
  case alarmStop => exact forLines _ (fun l u => alarmStopAt l u) _ _
  case ringParty =>
    unfold State.carryRingParty
    split
    · exact refl s
    · exact ringParty _ _ _
  case ringCancel =>
    unfold State.carryRingCancel
    dsimp only
    split
    · exact of_kept ((Kept.removeEntry _).trans (Kept.endCall _ _ _))
    · exact refl s
  case connect =>
    unfold State.carryConnect
    dsimp only
    split
    · exact of_kept (connectLine _)
    · exact refl s
  case reject =>
    unfold State.carryReject
    dsimp only
    split
    · exact of_kept (Kept.endCall _ _ _)
    · exact refl s
  case disconnect =>
    unfold State.carryDisconnect
    dsimp only
    split
    · exact of_kept (Kept.endCall _ _ _)
    · exact refl s
  case lineRelease =>
    unfold State.carryLineRelease
    dsimp only
    split
    · exact refl s
    · exact of_kept (releaseLine _)
  case testAccess =>
    unfold State.carryTestAccess
    dsimp only
    split
    · exact of_kept (Kept.trans (Kept.updLine _ _ rfl) (Kept.enter _ _))
    · exact refl s
  case testRelease =>
    unfold State.carryTestRelease
    dsimp only
    split
    · exact of_kept (Kept.trans (Kept.updLine _ _ rfl) (Kept.enter _ _))
    · exact refl s
  case calibrate =>
    unfold State.carryCalibrate
    dsimp only
    split
    · exact refl s
    · split
      · exact of_kept (Kept.trans (Kept.updLine _ _ rfl) (Kept.enter _ _))
      · exact refl s
  case calibrateCancel =>
    unfold State.carryCalibrateCancel
    dsimp only
    split
    · exact of_kept (Kept.failToIdle _ _)
    · exact refl s
  case arbiterRead =>
    unfold State.carryArbiterRead
    split
    · exact refl s
    · split <;> exact refl s
  case partyWrite =>
    unfold State.carryPartyWrite
    dsimp only
    split <;> exact same rfl rfl
  case alarmIdentity =>
    unfold State.carryAlarmIdentity
    dsimp only
    split <;> exact same rfl rfl
  case planCommit =>
    unfold State.carryPlanCommit
    dsimp only
    repeat' split
    all_goals exact same rfl rfl
  case planDiscard =>
    unfold State.carryPlanDiscard
    dsimp only
    split <;> exact same rfl rfl
  case lineLevels =>
    unfold State.carryLineLevels
    dsimp only
    split <;> exact same rfl rfl
  case lineLoads =>
    unfold State.carryLineLoads
    dsimp only
    split <;> exact same rfl rfl
  case numberingSet =>
    unfold State.carryNumberingSet
    dsimp only
    split
    · exact same rfl rfl
    · split <;> exact same rfl rfl
  case cadencePut =>
    unfold State.carryCadencePut
    split <;> exact same rfl rfl
  case cadenceStore =>
    unfold State.carryCadenceStore
    repeat' split
    all_goals exact same rfl rfl
  case cadenceClear =>
    unfold State.carryCadenceClear
    dsimp only
    split <;> exact same rfl rfl
  case cadenceRead =>
    unfold State.carryCadenceRead
    split <;> exact same rfl rfl
  all_goals exact same rfl rfl

/-- Judging a command leaves the flow of frames as it is. -/
theorem judge (c : HostCmd) (p : List Byte) : Flows s (s.judge c p).1 := by
  unfold State.judge
  split
  · split
    · exact refl s
    · exact carry c p
  · exact refl s

/-- Answering a frame leaves the flow of frames as it is. -/
theorem answerFrame (f : Frame) : Flows s (s.answerFrame f).1 := by
  unfold State.answerFrame
  split
  · exact refl s
  · exact judge _ _

end Flows

end Sys2Proof.Machine
end

