-- ==== Sys2Proof/Laws/Clock.lean ====
section
/-! SUPPORT. What a scan does to the timebase (R31), and the scans before which no step event is owed: such a scan is taken
on the state as it stands. -/

namespace Sys2Proof.Machine

namespace Timebase

variable (t : Timebase) (l : LineNo)

/-- A scan moves the scan count, the lines scanned and whether a step event is due, and nothing else of the timebase. -/
theorem scan_moves : t.scan l =
    { t with scanCount := (t.scan l).scanCount, scanned := (t.scan l).scanned, stepDue := (t.scan l).stepDue } := by
  unfold scan countPeriod
  split
  · split <;> rfl
  · rfl

/-- A scan that opens one of the first nine periods of a step. -/
theorem scan_counts (h : t.opensPeriod l = true) (n : t.scanCount < 9) :
    t.scan l = { t with scanCount := t.scanCount + 1, scanned := lineBit l } := by
  unfold scan countPeriod
  rw [if_pos h, if_pos n]

/-- A scan that opens the tenth period makes the step event due. -/
theorem scan_tenth (h : t.opensPeriod l = true) (n : ¬t.scanCount < 9) :
    t.scan l = { t with stepDue := true, scanned := lineBit l } := by
  unfold scan countPeriod
  rw [if_pos h, if_neg n]

/-- A scan of another line in the same period. -/
theorem scan_joins (h : t.opensPeriod l = false) : t.scan l = { t with scanned := t.scanned ||| lineBit l } := by
  unfold scan
  rw [if_neg (by simp [h])]

@[simp] theorem scan_stamp : (t.scan l).stamp = t.stamp := by
  rw [scan_moves]

@[simp] theorem scan_position : (t.scan l).position = t.position := by
  rw [scan_moves]

@[simp] theorem scan_parity : (t.scan l).parity = t.parity := by
  rw [scan_moves]

@[simp] theorem scan_role : (t.scan l).role = t.role := by
  rw [scan_moves]

@[simp] theorem scan_follower : (t.scan l).follower = t.follower := by
  rw [scan_moves]

/-- After a step event none is due, and the scan count starts again (R31). -/
@[simp] theorem stepped_stepDue (b : Bool) : (t.stepped b).stepDue = false := rfl

@[simp] theorem stepped_scanCount (b : Bool) : (t.stepped b).scanCount = 0 := rfl

@[simp] theorem stepped_scanned (b : Bool) : (t.stepped b).scanned = t.scanned := rfl

theorem owes_iff : t.owes l = true ↔ t.stepDue = true ∧ t.scanned.getLsbD l.val = true := by
  unfold owes hasScanned
  exact Bool.and_eq_true _ _ ▸ Iff.rfl

end Timebase

/-! ### Scans before which no step event is owed -/

namespace State

variable {s : State} {l : LineNo}

theorem owes_of_paced (h : s.paced l) : s.timebase.owes l = false := by
  unfold Timebase.owes Timebase.hasScanned
  rcases h with h | h <;> rw [h]
  · rfl
  · exact Bool.and_false _

theorem takeOwed_of_paced (h : s.paced l) : s.takeOwed l = s := by
  unfold takeOwed
  rw [if_neg (by simp [owes_of_paced h])]

/-- The step event that is owed is the one that STEP_EVENT takes. -/
theorem takeOwed_of_owed (h : ¬s.paced l) : exec (.stepEvent [] []) s = .next (s.takeOwed l) := by
  have h1 : s.timebase.stepDue = true := by
    by_contra e
    exact h (Or.inl (by simpa using e))
  have h2 : s.timebase.owes l = true := (Timebase.owes_iff _ _).mpr ⟨h1, by
    by_contra e
    exact h (Or.inr (by simpa using e))⟩
  unfold takeOwed
  rw [if_pos h2]
  show execStepEvent [] [] s = _
  unfold execStepEvent occurring finish
  rw [if_pos h1]

end State

/-- A scan in its time is taken on the state as it stands (R41). -/
theorem execScan_of_paced {s : State} {l : LineNo} (r : Reading) (h : s.paced l) :
    execScan l r s = finish (s.scanLine l r) := by
  unfold execScan
  rw [State.takeOwed_of_paced h]

/-- A scan in its time that is named by what it finds. -/
theorem scanning_of_paced {s : State} {l : LineNo} (finds : State → Bool) (r : Reading) (h : s.paced l) :
    scanning finds l r s = if finds s then finish (s.scanLine l r) else .next s := by
  unfold scanning
  rw [State.takeOwed_of_paced h]

/-- Before the tenth scan of a step there is no step event (R31, R40). -/
theorem execStepEvent_of_not_due {s : State} (first held : List Work) (h : s.timebase.stepDue = false) :
    execStepEvent first held s = .next s := by
  unfold execStepEvent occurring
  rw [if_neg (by simp [h])]

end Sys2Proof.Machine
end

