-- ==== Sys2Proof/Laws/Link.lean ====
section
/-! SUPPORT. What an event's end does (R179, R183): nothing to frames when none waits, and the whole course of a command
that arrives at a ready link. -/

namespace Sys2Proof.Machine

namespace State

theorem dispatch_of_empty (n : Nat) (s : State) (h : s.link.intake = []) : s.dispatch n = s := by
  cases n with
  | zero => rfl
  | succ n => simp [dispatch, h]

theorem dispatchAll_of_empty (s : State) (h : s.link.intake = []) : s.dispatchAll = s := dispatch_of_empty _ s h

theorem chosen_intake (e : Fin 17) (r : ReportKind) (s : State) : (s.chosen e r).link.intake = s.link.intake := by
  unfold chosen
  split
  · split <;> rfl
  all_goals rfl

theorem choose_intake (s : State) : s.choose.link.intake = s.link.intake := by
  unfold choose
  split
  · rfl
  · split
    · rfl
    · rw [sendReport, chosen_intake]; rfl

theorem transmit_intake (s : State) : s.transmit.link.intake = s.link.intake := by
  unfold transmit
  split
  · rfl
  · exact choose_intake s

/-- With no frame waiting, an event ends with the transmitter's choice alone. -/
theorem settleLink_of_empty (s : State) (h : s.link.intake = []) : s.settleLink = s.transmit := by
  unfold settleLink
  rw [dispatchAll_of_empty s h, dispatchAll_of_empty]
  rw [transmit_intake, h]

/-- A frame that leaves the state where it found no other frame waiting. -/
theorem updLink_taken (s : State) (f : Frame) (h : s.link.intake = []) :
    ((s.updLink fun k => { k with intake := k.intake ++ [f] }).updLink fun k => { k with intake := [] }) = s := by
  obtain ⟨lines, numbering, cadence, edit, dialPlan, settings, timebase, arb, link, due, boundary, pending⟩ := s
  obtain ⟨receiver, intake, replies, tx, lastServed, pendingSets, slots, mask, faults, rate⟩ := link
  simp only at h
  subst h
  rfl

/-- A good frame arriving at a ready link is taken, judged, carried out and answered in the same event (R178 to
R180). -/
theorem arrival_ready (f : Frame) (s : State) (h : s.ready) :
    arrival f s = .next ((s.answerFrame f).1.replied (s.answerFrame f).2) := by
  obtain ⟨h1, h2⟩ := h
  have ho : s.offer f = s.updLink fun k => { k with intake := k.intake ++ [f] } := by
    simp [offer, h1, Config.intakeLimit]
  have hd : (s.offer f).dispatchAll = (s.answerFrame f).1.pushReply (s.answerFrame f).2 := by
    have e1 : (s.offer f).link.intake = [f] := by rw [ho]; simp [h1]
    have e2 : (s.offer f).link.replies = s.link.replies := by rw [ho]; rfl
    have e3 : ((s.offer f).updLink fun k => { k with intake := [] }) = s := by rw [ho]; exact updLink_taken s f h1
    unfold dispatchAll
    rw [show Config.intakeLimit = 3 + 1 from rfl]
    unfold dispatch
    rw [e1]
    simp only [e2, Config.replyLimit]
    rw [if_pos h2, e3]
    apply dispatch_of_empty
    simp only [pushReply, updLink_link]
    rw [(Flows.answerFrame f).intake, h1]
  have h3 : ((s.answerFrame f).1.pushReply (s.answerFrame f).2).transmit.link.intake = [] := by
    rw [transmit_intake]
    simp only [pushReply, updLink_link]
    rw [(Flows.answerFrame f).intake, h1]
  unfold arrival finish settleLink
  rw [hd, dispatchAll_of_empty _ h3]
  rfl

end State

/-- The kind code of a command names it (R180, check 1). -/
theorem HostCmd.ofCode_code (c : HostCmd) : HostCmd.ofCode c.code = some c := by
  cases c <;> decide

/-- A command of the host at a ready link (R178 to R180, R183). -/
theorem hostCommand_ready (c : HostCmd) (tag : Byte) (p : List Byte) (s : State) (h : s.ready) :
    hostCommand c tag p s = .next ((s.judge c p).1.replied ⟨replyKind c.code, tag, (s.judge c p).2⟩) := by
  unfold hostCommand
  rw [State.arrival_ready _ s h]
  simp [State.answerFrame, HostCmd.ofCode_code]

/-- An event after which no frame waits: its effect, then the transmitter's choice. -/
theorem finish_of_empty (s : State) (h : s.link.intake = []) : finish s = .next s.transmit := by
  rw [finish, State.settleLink_of_empty s h]

end Sys2Proof.Machine
end

