-- ==== Sys2Proof/Laws/Local.lean ====
section
/-! SUPPORT. The work of one line leaves the other lines and their rows of the placement table as they are: one lemma
for each operation that names a line. -/

namespace Sys2Proof.Machine

/-- From `s` to `t` no line but `l`, and no row but that of `l`, has changed. -/
structure Local (l : LineNo) (s t : State) : Prop where
  line : ∀ m, m ≠ l → t.line m = s.line m
  row : ∀ m, m ≠ l → t.row m = s.row m

namespace Local

variable {s t u : State}

theorem refl {l : LineNo} (s : State) : Local l s s := ⟨fun _ _ => rfl, fun _ _ => rfl⟩

theorem trans {l : LineNo} (h : Local l s t) (k : Local l t u) : Local l s u :=
  ⟨fun m hm => (k.line m hm).trans (h.line m hm), fun m hm => (k.row m hm).trans (h.row m hm)⟩

theorem updLine (l : LineNo) (f : Line → Line) : Local l s (s.updLine l f) :=
  ⟨fun m hm => by rw [State.line_updLine, if_neg hm], fun _ _ => rfl⟩

theorem updArb {l : LineNo} (f : Arbiter → Arbiter) (h : ∀ m, m ≠ l → (f s.arb).rows.get m = s.arb.rows.get m) :
    Local l s (s.updArb f) := ⟨fun _ _ => rfl, h⟩

theorem setRow (l : LineNo) (e : Option Entry) : Local l s (s.setRow l e) :=
  ⟨fun _ _ => rfl, fun m hm => by rw [State.row_setRow, if_neg hm]⟩

theorem boundary {l : LineNo} (b : Option Boundary) : Local l s { s with boundary := b } :=
  ⟨fun _ _ => rfl, fun _ _ => rfl⟩

theorem mark {l : LineNo} (k : ReportKind) (e : Fin 17) (d : List Byte) : Local l s (s.mark k e d) :=
  ⟨fun m _ => State.line_mark s k e d m, fun m _ => State.row_mark s k e d m⟩

theorem markLine {l : LineNo} (k : ReportKind) (m : LineNo) (d : List Byte) : Local l s (s.markLine k m d) :=
  mark _ _ _

theorem markDevice {l : LineNo} (k : ReportKind) (d : List Byte) : Local l s (s.markDevice k d) := mark _ _ _

theorem markLineFault {l : LineNo} (m : LineNo) (c : LineFaultCause) : Local l s (s.markLineFault m c) :=
  markLine _ _ _

theorem markSupply {l : LineNo} (ev : SupplyEvent) (c : Option Channel) : Local l s (s.markSupply ev c) :=
  markDevice _ _

/-- A fold of operations of one line. -/
theorem foldl {α : Type} {l : LineNo} (f : State → α → State) (h : ∀ u a, Local l u (f u a)) (as : List α)
    (s : State) : Local l s (as.foldl f s) := by
  induction as generalizing s with
  | nil => exact refl s
  | cons a as ih => exact (h s a).trans (ih (f s a))

/-! ### The arbiter -/

theorem markRing (l : LineNo) (ev : RingEvent) (c : Option SuspendCause) (e : Entry) (w p : Nat) :
    Local l s (s.markRing l ev c e w p) := markLine _ _ _

theorem placementNotice (l : LineNo) (e : Entry) : Local l s (s.placementNotice l e) := by
  unfold State.placementNotice
  split
  · exact updLine _ _
  all_goals exact refl s

theorem leftQueue {l : LineNo} (m : LineNo) : Local l s (s.leftQueue m) := boundary _

theorem placeEntry (l : LineNo) (e : Entry) (φ : Nat) : Local l s (s.placeEntry l e φ) := by
  unfold State.placeEntry
  dsimp only
  have h : Local l s (s.updArb fun a =>
      { a with
        rows := a.rows.set l (some (e.placedAt φ))
        profile := s.profileWith e φ
        placedOrder := a.placedOrder.filter (· != l) ++ [l]
        waitQueue := a.waitQueue.filter (· != l) }) := updArb _ (fun m hm => Tab.get_set_ne _ _ hm)
  split
  · exact ((h.trans (placementNotice _ _)).trans (leftQueue _)).trans (markRing _ _ _ _ _ _)
  · exact (h.trans (placementNotice _ _)).trans (leftQueue _)

theorem joinWaiting (l : LineNo) : Local l s (s.joinWaiting l) := by
  unfold State.joinWaiting
  split <;> exact updArb _ (fun _ _ => rfl)

theorem joinSuspended {l : LineNo} (ls : List LineNo) : Local l s (s.joinSuspended ls) := updArb _ (fun _ _ => rfl)

theorem wakeSupply {l : LineNo} : Local l s s.wakeSupply :=
  (updArb (fun a : Arbiter => { a with supply := .warming, warmUpCount := a.warmUpFrames }) (fun _ _ => rfl)).trans (markSupply _ _)

theorem reloadStandby {l : LineNo} (ev : StandbyEvent) : Local l s (s.reloadStandby ev) := by
  unfold State.reloadStandby
  split
  · exact updArb _ (fun _ _ => rfl)
  · exact refl s

theorem standbyEvent {l : LineNo} (ev : StandbyEvent) : Local l s (s.standbyEvent ev) := by
  unfold State.standbyEvent
  dsimp only
  split
  · exact (reloadStandby _).trans wakeSupply
  · exact reloadStandby _

theorem tryAdmission (l : LineNo) (e : Entry) : Local l s (s.tryAdmission l e) := by
  unfold State.tryAdmission
  split
  · split
    · exact placeEntry _ _ _
    · exact joinWaiting _
  · exact joinWaiting _

theorem request (l : LineNo) (e : Entry) : Local l s (s.request l e) :=
  ((setRow _ _).trans (standbyEvent _)).trans (tryAdmission _ _)

theorem removeEntry (l : LineNo) : Local l s (s.removeEntry l) := by
  unfold State.removeEntry
  split
  · exact refl s
  · exact Local.trans (Local.trans (updArb _ (fun m hm => Tab.get_set_ne _ _ hm)) (updLine l _)) (leftQueue _)

/-! ### Records and call states -/

theorem writeBaseline (l : LineNo) (b : Nat) : Local l s (s.writeBaseline l b) := by
  unfold State.writeBaseline
  dsimp only
  split
  · exact updLine _ _
  · exact Local.trans (updLine _ _) (markLineFault _ _)

theorem updRecord (l : LineNo) (f : Record → Record) : Local l s (s.updRecord l f) := updLine _ _

theorem completeRecord (l : LineNo) (c : EndCause) : Local l s (s.completeRecord l c) := by
  unfold State.completeRecord
  split
  · exact refl s
  · exact Local.trans (updLine _ _) (markLine _ _ _)

theorem markState (l : LineNo) (p : CallState) (c : Option EndCause) : Local l s (s.markState l p c) := markLine _ _ _

theorem putCall (l : LineNo) (n : CallState) : Local l s (s.putCall l n) := updLine _ _

theorem endCall (l : LineNo) (n : CallState) (c : EndCause) : Local l s (s.endCall l n c) := by
  unfold State.endCall
  dsimp only
  split
  · exact (completeRecord _ _).trans (putCall _ _)
  · exact ((completeRecord _ _).trans (putCall _ _)).trans (markState _ _ _)

theorem enter (l : LineNo) (n : CallState) : Local l s (s.enter l n) := by
  unfold State.enter
  dsimp only
  split
  · exact putCall _ _
  · exact (putCall _ _).trans (markState _ _ _)

theorem openCall (l : LineNo) (r : Record) : Local l s (s.openCall l r) := updLine _ _

theorem originate (l : LineNo) : Local l s (s.originate l) :=
  Local.trans (Local.trans (Local.trans (openCall _ _) (updLine _ _)) (enter _ _)) (standbyEvent _)

/-! ### Calibration -/

theorem markCalibration (l : LineNo) (r : Run) : Local l s (s.markCalibration l r) := markLine _ _ _

theorem failRun (l : LineNo) (c : CalCause) : Local l s (s.failRun l c) := by
  unfold State.failRun
  split
  · exact refl s
  · exact Local.trans (Local.trans (removeEntry _) (updLine _ _)) (markCalibration _ _)

theorem failToIdle (l : LineNo) (c : CalCause) : Local l s (s.failToIdle l c) := by
  unfold State.failToIdle
  split
  · exact refl s
  · exact (failRun _ _).trans (enter _ _)

theorem completeRun (l : LineNo) (r : Run) (loads : Tab 4 Nat) (t : Nat) : Local l s (s.completeRun l r loads t) :=
  Local.trans (Local.trans (Local.trans (updLine _ _) (writeBaseline _ _)) (markCalibration _ _)) (enter _ _)

theorem computeRun (l : LineNo) (r : Run) : Local l s (s.computeRun l r) := by
  unfold State.computeRun
  split
  · exact Local.trans (updLine _ _) (failToIdle _ _)
  · exact completeRun _ _ _ _

theorem beginWait (l : LineNo) (f : Channel) : Local l s (s.beginWait l f) := by
  unfold State.beginWait
  split
  · exact refl s
  · dsimp only
    split
    · exact Local.trans (updLine _ _) (failToIdle _ _)
    · exact Local.trans (updLine _ _) (request _ _)

theorem burstEnd (l : LineNo) (n ac dc : Nat) : Local l s (s.burstEnd l n ac dc) := by
  unfold State.burstEnd
  split
  · exact refl s
  · dsimp only
    split
    · exact (removeEntry _).trans (failToIdle _ _)
    · split
      · exact Local.trans (Local.trans (removeEntry _) (updLine _ _)) (beginWait _ _)
      · exact Local.trans (Local.trans (removeEntry _) (updLine _ _)) (computeRun _ _)

theorem calWaitCount (l : LineNo) : Local l s (s.calWaitCount l) := by
  unfold State.calWaitCount
  split
  · exact refl s
  · split
    · exact refl s
    · exact refl s
    · dsimp only
      split
      · exact Local.trans (updLine _ _) (failToIdle _ _)
      · exact updLine _ _

theorem leakScan (l : LineNo) (i : Nat) : Local l s (s.leakScan l i) := by
  unfold State.leakScan
  split
  · exact refl s
  · split
    · exact refl s
    · exact refl s
    · dsimp only
      split
      · exact updLine _ _
      · split
        · exact Local.trans (updLine _ _) (failToIdle _ _)
        · split
          · exact updLine _ _
          · exact Local.trans (Local.trans (updLine _ _) (updLine _ _)) (beginWait _ _)

theorem calibrationLift (l : LineNo) (m : Manner) : Local l s (s.calibrationLift l m) := by
  unfold State.calibrationLift
  cases m
  · exact Local.trans (Local.trans (failRun _ _) (updLine _ _)) (originate _)
  · exact (failRun _ _).trans (originate _)

/-! ### Reverting calls -/

theorem enterExchWait (l : LineNo) : Local l s (s.enterExchWait l) := by
  unfold State.enterExchWait
  dsimp only
  split
  · exact Local.trans (updLine _ _) (enter _ _)
  · exact Local.trans (Local.trans (updLine _ _) (enter _ _)) (markLine _ _ _)

theorem revertChecks (l : LineNo) (c : Option (LineNo × Slot)) : Local l s (s.revertChecks l c) := by
  unfold State.revertChecks
  dsimp only
  split
  · exact endCall _ _ _
  · split
    · exact endCall _ _ _
    · split
      · exact endCall _ _ _
      · split
        · exact (updRecord _ _).trans (endCall _ _ _)
        · split
          · exact (updRecord _ _).trans (endCall _ _ _)
          · split
            · exact (updRecord _ _).trans (endCall _ _ _)
            · exact ((updRecord _ _).trans (updRecord _ _)).trans (enter _ _)

theorem dialAction (l : LineNo) (a : Action) : Local l s (s.dialAction l a) := by
  unfold State.dialAction
  dsimp only
  split
  · exact enterExchWait _
  · exact endCall _ _ _
  · exact revertChecks _ _
  · exact revertChecks _ _

theorem consultDialPlan (l : LineNo) : Local l s (s.consultDialPlan l) := by
  unfold State.consultDialPlan
  split
  · exact refl s
  · exact dialAction _ _
  · split
    · exact enterExchWait _
    · exact endCall _ _ _

theorem revertHangup (l : LineNo) : Local l s (s.revertHangup l) := by
  unfold State.revertHangup
  split
  · exact endCall _ _ _
  · exact (enter _ _).trans (request _ _)

theorem revertLift (l : LineNo) (m : Manner) : Local l s (s.revertLift l m) :=
  Local.trans (Local.trans (removeEntry _) (updLine _ _)) (enter _ _)

theorem markAnswer (l : LineNo) (m : Manner) : Local l s (s.markAnswer l m) := by
  unfold State.markAnswer
  split
  · exact refl s
  · exact markLine _ _ _

theorem revertResult (l : LineNo) (r : TestResult) : Local l s (s.revertResult l r) := by
  unfold State.revertResult
  dsimp only
  split
  · split
    · exact (updRecord _ _).trans (enter _ _)
    · split
      · exact (updRecord _ _).trans (endCall _ _ _)
      · exact (updRecord _ _).trans (enter _ _)
  · exact ((updRecord _ _).trans (markAnswer _ _)).trans (enter _ _)

/-! ### Call control -/

theorem identify (l : LineNo) (r : TestResult) : Local l s (s.identify l r) :=
  ((updRecord _ _).trans (markLine _ _ _)).trans (enter _ _)

theorem handResult (l : LineNo) (r : TestResult) : Local l s (s.handResult l r) := by
  unfold State.handResult
  split
  · exact identify _ _
  · exact revertResult _ _
  all_goals exact refl s

theorem markDigits (l : LineNo) : Local l s (s.markDigits l) := markLine _ _ _

theorem callDigit (l : LineNo) (d : Digit) : Local l s (s.callDigit l d) := by
  unfold State.callDigit
  split
  · exact Local.trans (updLine _ _) (consultDialPlan _)
  · exact updLine _ _
  · exact Local.trans (updLine _ _) (markDigits _)
  all_goals exact refl s

theorem callDigitError (l : LineNo) : Local l s (s.callDigitError l) := by
  unfold State.callDigitError
  split
  · exact endCall _ _ _
  · exact updLine _ _
  · exact Local.trans (updLine _ _) (markDigits _)
  all_goals exact refl s

theorem answer (l : LineNo) (m : Manner) : Local l s (s.answer l m) :=
  (((removeEntry _).trans (updRecord _ _)).trans (markAnswer _ _)).trans (enter _ _)

theorem alarmAnswer (l : LineNo) (m : Manner) : Local l s (s.alarmAnswer l m) := by
  unfold State.alarmAnswer
  dsimp only
  cases m
  · exact Local.trans (Local.trans (Local.trans ((removeEntry _).trans (updRecord _ _)) (updLine _ _))
      (markAnswer _ _)) (enterExchWait _)
  · exact (((removeEntry _).trans (updRecord _ _)).trans (markAnswer _ _)).trans (enterExchWait _)

theorem lift (l : LineNo) (m : Manner) : Local l s (s.lift l m) := by
  unfold State.lift
  split
  · exact answer _ _
  · exact alarmAnswer _ _
  · exact revertLift _ _
  · exact calibrationLift _ _
  all_goals exact refl s

theorem callOffHook (l : LineNo) : Local l s (s.callOffHook l) := by
  unfold State.callOffHook
  split
  · exact originate _
  · exact lift _ _

theorem callOnHook (l : LineNo) : Local l s (s.callOnHook l) := by
  unfold State.callOnHook
  split
  all_goals first
    | with_reducible exact endCall _ _ _
    | with_reducible exact enter _ _
    | with_reducible exact revertHangup _
    | exact refl s

theorem callFlash (l : LineNo) : Local l s (s.callFlash l) := by
  unfold State.callFlash
  split
  · exact markLine _ _ _
  · exact refl s

theorem callPulse (l : LineNo) : Local l s (s.callPulse l) := by
  unfold State.callPulse
  split
  · exact updLine _ _
  · exact refl s

theorem handItem (l : LineNo) (i : HookItem) : Local l s (s.handItem l i) := by
  cases i
  · exact callOffHook _
  · exact callOnHook _
  · exact (callDigit _ _).trans (standbyEvent _)
  · exact (callDigitError _).trans (standbyEvent _)
  · exact callFlash _
  · exact callPulse _

theorem expiry (l : LineNo) : Local l s (s.expiry l) := by
  unfold State.expiry
  split
  all_goals first
    | with_reducible exact endCall _ _ _
    | with_reducible exact (removeEntry _).trans (endCall _ _ _)
    | with_reducible exact enter _ _
    | exact refl s

theorem callTimerStep (l : LineNo) : Local l s (s.callTimerStep l) := by
  unfold State.callTimerStep
  split
  · exact refl s
  · split
    · exact Local.trans (updLine _ _) (expiry _)
    · exact updLine _ _

theorem startAlarm (l : LineNo) (v : Voice) (n : Nat) : Local l s (s.startAlarm l v n) :=
  Local.trans (Local.trans (Local.trans (openCall _ _) (updLine _ _)) (enter _ _)) (request _ _)

theorem pendingAlarmStep (l : LineNo) : Local l s (s.pendingAlarmStep l) := by
  unfold State.pendingAlarmStep
  split
  · split
    · exact startAlarm _ _ _
    · exact Local.trans (updLine _ _) (markState _ _ _)
  · exact refl s

theorem endAlarm (l : LineNo) : Local l s (s.endAlarm l) := (removeEntry _).trans (endCall _ _ _)

theorem alarmCountStep (l : LineNo) : Local l s (s.alarmCountStep l) := by
  unfold State.alarmCountStep
  split
  · dsimp only
    split
    · exact Local.trans (updLine _ _) (endAlarm _)
    · exact updLine _ _
  · exact refl s

theorem disableLine (l : LineNo) : Local l s (s.disableLine l) := by
  unfold State.disableLine
  dsimp only
  refine Local.trans ?_ (updLine _ _)
  refine Local.trans ?_ (endCall _ _ _)
  refine Local.trans ?_ (updLine _ _)
  exact (removeEntry _).trans (failRun _ _)

theorem enableLine (l : LineNo) : Local l s (s.enableLine l) := by
  unfold State.enableLine
  split
  · exact Local.trans (updLine _ _) (enter _ _)
  · exact refl s

/-! ### Scans -/

theorem hookScan (l : LineNo) (r : Reading) : Local l s (s.hookScan l r) := by
  unfold State.hookScan
  dsimp only
  exact Local.trans (updLine _ _) (foldl _ (fun u i => handItem l i) _ _)

theorem testScan (l : LineNo) (r : Reading) : Local l s (s.testScan l r) := by
  unfold State.testScan
  dsimp only
  split
  · exact updLine _ _
  · exact Local.trans (updLine _ _) (handResult _ _)

theorem ringScan (l : LineNo) (r : Reading) (p : Play) : Local l s (s.ringScan l r p) := by
  unfold State.ringScan
  dsimp only
  split
  · exact Local.trans (updLine _ _) (lift _ _)
  · exact updLine _ _

theorem trackScan (l : LineNo) (j : Bool) (i : Nat) : Local l s (s.trackScan l j i) := by
  unfold State.trackScan
  dsimp only
  split
  · split
    · exact updLine _ _
    · exact Local.trans (updLine _ _) (writeBaseline _ _)
  · exact updLine _ _

theorem loopScan (l : LineNo) (r : Reading) : Local l s (s.loopScan l r) := by
  unfold State.loopScan
  dsimp only
  repeat' split
  all_goals first
    | exact testScan _ _
    | exact ringScan _ _ _
    | exact hookScan _ _
    | exact refl s

theorem fittedScan (l : LineNo) (r : Reading) : Local l s (s.fittedScan l r) :=
  ((loopScan _ _).trans (trackScan _ _ _)).trans (leakScan _ _)

/-! ### The ring engine -/

theorem endBurst (l : LineNo) (e : Entry) (p : Play) : Local l s (s.endBurst l e p) := by
  unfold State.endBurst
  split
  · exact burstEnd _ _ _ _
  · exact refl s

theorem playStep (l : LineNo) (e : Entry) (φ : Nat) (p : Play) : Local l s (s.playStep l e φ p) := by
  unfold State.playStep
  dsimp only
  split
  · exact Local.trans (updLine _ _) (endBurst _ _ _)
  · split <;> exact updLine _ _

theorem ringStep (l : LineNo) : Local l s (s.ringStep l) := by
  unfold State.ringStep
  split
  · exact refl s
  · split
    · exact playStep _ _ _ _
    all_goals exact refl s

end Local

/-- An event that keeps what the call blocks keep, and changes one line alone. -/
theorem State.OnlyLine.of_kept {l : LineNo} {s t : State} (k : Kept s t) (h : Local l s t) : s.OnlyLine l t := by
  have g := k.given
  simp only [State.given, Prod.mk.injEq] at g
  obtain ⟨g1, g2, g3, g4, g5, g6, _, g8⟩ := g
  exact ⟨⟨g1, g2, g3, g4, g5, by rw [g6], g8⟩, k.arb, k.link, k.plan l, h.line, h.row⟩

end Sys2Proof.Machine
end

