-- ==== Sys2Proof/Laws/Marks.lean ====
section
/-! SUPPORT. What a marking leaves in the slots and the pending sets (R186), and that later markings of other kinds or
other entries leave it there. -/

namespace Sys2Proof.Machine

/-- The bit of a kind is the kind. -/
theorem kindIn_bit (k j : ReportKind) : kindIn j k.bit = true ↔ j = k := by
  cases k <;> cases j <;> simp [kindIn, ReportKind.bit, ReportKind.idx]

theorem idx_injective {j k : ReportKind} (h : j.idx = k.idx) : j = k := by
  revert h
  cases k <;> cases j <;> simp [ReportKind.idx]

theorem kindIn_or (j : ReportKind) (m n : BitVec 14) : kindIn j (m ||| n) = (kindIn j m || kindIn j n) := by
  simp [kindIn]

namespace State

/-- The data slot of an entry and a kind. -/
theorem mark_slot_self (k : ReportKind) (e : Fin 17) (d : List Byte) (s : State) (h : kindIn k s.link.mask = true) :
    ((s.mark k e d).link.slots.get e).get k.idx = some d := by
  unfold mark
  rw [if_pos h]
  simp

theorem mark_pending_self (k : ReportKind) (e : Fin 17) (d : List Byte) (s : State) (h : kindIn k s.link.mask = true) :
    kindIn k ((s.mark k e d).link.pendingSets.get e) = true := by
  unfold mark
  rw [if_pos h]
  simp [kindIn_or, (kindIn_bit k k).2 rfl]

theorem mark_slot_ne (k j : ReportKind) (e f : Fin 17) (d : List Byte) (s : State) (h : j ≠ k ∨ f ≠ e) :
    ((s.mark k e d).link.slots.get f).get j.idx = (s.link.slots.get f).get j.idx := by
  unfold mark
  split
  · simp only [updLink_link]
    by_cases hf : f = e
    · subst hf
      have : j.idx ≠ k.idx := fun hh => (h.resolve_right (by simp)) (idx_injective hh)
      rw [Tab.get_set_self, Tab.get_set_ne _ _ this]
    · rw [Tab.get_set_ne _ _ hf]
  · rfl

theorem mark_pending_ne (k j : ReportKind) (e f : Fin 17) (d : List Byte) (s : State) (h : j ≠ k ∨ f ≠ e) :
    kindIn j ((s.mark k e d).link.pendingSets.get f) = kindIn j (s.link.pendingSets.get f) := by
  unfold mark
  split
  · simp only [updLink_link]
    by_cases hf : f = e
    · subst hf
      have hj : j ≠ k := h.resolve_right (by simp)
      have hb : kindIn j k.bit = false := by
        rw [Bool.eq_false_iff]
        exact fun hh => hj ((kindIn_bit k j).1 hh)
      rw [Tab.get_set_self, kindIn_or, hb, Bool.or_false]
    · rw [Tab.get_set_ne _ _ hf]
  · rfl

theorem lineEntry_ne_device (l : LineNo) : lineEntry l ≠ deviceEntry := by
  intro h
  have h1 : l.val = 16 := congrArg Fin.val h
  have h2 := l.isLt
  omega

theorem lineEntry_injective {l m : LineNo} (h : lineEntry l = lineEntry m) : l = m := by
  have := congrArg Fin.val h
  simp only [lineEntry] at this
  exact Fin.ext this

theorem markLine_marked (k : ReportKind) (l : LineNo) (d : List Byte) (s : State) :
    (s.markLine k l d).marked s.link.mask k l d :=
  fun h => ⟨mark_slot_self _ _ _ _ h, mark_pending_self _ _ _ _ h⟩

/-- A marked report stays through a later marking of another kind or entry. -/
theorem marked_mark {t : State} {m : BitVec 14} {k : ReportKind} {l : LineNo} {d : List Byte} (h : t.marked m k l d)
    (j : ReportKind) (e : Fin 17) (d' : List Byte) (hn : k ≠ j ∨ lineEntry l ≠ e) : (t.mark j e d').marked m k l d := by
  intro hk
  obtain ⟨h1, h2⟩ := h hk
  exact ⟨(mark_slot_ne j k e _ d' t hn).trans h1, (mark_pending_ne j k e _ d' t hn).trans h2⟩

/-- A marked report depends on the link alone. -/
theorem marked_of_link {s t : State} {m : BitVec 14} {k : ReportKind} {l : LineNo} {d : List Byte} (h : s.marked m k l d)
    (hl : t.link.slots = s.link.slots) (hp : t.link.pendingSets = s.link.pendingSets) : t.marked m k l d := by
  intro hk
  rw [hl, hp]
  exact h hk

/-- The CALIBRATION report of a run carries the data of R199. -/
theorem markCalibration_data (l : LineNo) (r : Run) (s : State) :
    s.markCalibration l r = s.markLine .calibration l (calibrationData l (s.line l) r s.stamp) := by
  have bits : (((channels.filter fun c => (r.meas.get c).isSome).map fun c => 2 ^ (4 + c.val)).sum) = r.measuredBits := by
    cases h0 : (r.meas.get 0).isSome <;> cases h1 : (r.meas.get 1).isSome <;> cases h2 : (r.meas.get 2).isSome <;>
      cases h3 : (r.meas.get 3).isSome <;>
      simp [Run.measuredBits, Run.measured, channels, List.filter, h0, h1, h2, h3]
  unfold markCalibration calibrationData
  rw [bits]
  simp only [channels, List.flatMap_cons, List.flatMap_nil, List.map_cons, List.map_nil, List.append_assoc, List.append_nil]
  cases r.phase <;> rfl

end State

end Sys2Proof.Machine
end

