-- ==== Sys2Proof/Laws/Order.lean ====
section
/-! SUPPORT. The order of the works of a step event (R31; log 6): each is taken once, and those that the sender names come
first, in the order of their first place. Also what entering a call state leaves of the tracking window (R56). -/

namespace Sys2Proof.Machine

/-- Every work is taken once. -/
theorem orderWorks_perm : ∀ first works : List Work, (orderWorks first works).Perm works
  | [], works => .refl works
  | w :: first, works => by
    unfold orderWorks
    split
    · next h =>
      exact ((orderWorks_perm first (works.erase w)).cons w).trans (List.perm_cons_erase (by simpa using h)).symm
    · exact orderWorks_perm first works

/-- The works that stand in front stand in the order of their first place in a list. -/
def NamedInOrder (first front : List Work) : Prop := front.Pairwise fun v w => first.idxOf v < first.idxOf w

/-- The order of works is the same in a list with another work put before it. -/
theorem NamedInOrder.cons {a : Work} {first front : List Work} (h : NamedInOrder first front)
    (away : ∀ w ∈ front, w ≠ a) : NamedInOrder (a :: first) front :=
  h.imp_of_mem fun hv hw k => by
    rw [List.idxOf_cons_ne _ (away _ hv).symm, List.idxOf_cons_ne _ (away _ hw).symm]
    exact Nat.succ_lt_succ k

/-- A work put before a list comes first in it. -/
theorem NamedInOrder.head {a : Work} {first front : List Work} (h : NamedInOrder first front)
    (away : ∀ w ∈ front, w ≠ a) : NamedInOrder (a :: first) (a :: front) :=
  List.Pairwise.cons
    (fun w hw => by
      rw [List.idxOf_cons_self, List.idxOf_cons_ne _ (away w hw).symm]
      exact Nat.succ_pos _)
    (h.cons away)

/-- The works named by the sender, in the order of their first place, and then works that it does not name. -/
theorem orderWorks_split : ∀ first works : List Work, works.Nodup → ∃ front rest,
    orderWorks first works = front ++ rest ∧ (∀ w ∈ rest, w ∉ first) ∧ (∀ w ∈ front, w ∈ first)
      ∧ NamedInOrder first front
  | [], works, _ => ⟨[], works, rfl, by simp, by simp, .nil⟩
  | a :: first, works, h => by
    unfold orderWorks
    split
    · obtain ⟨front, rest, e, hr, hf, hp⟩ := orderWorks_split first (works.erase a) (h.erase a)
      have away : ∀ w ∈ front ++ rest, w ≠ a := fun w hw he => by
        subst he
        exact h.not_mem_erase ((orderWorks_perm _ _).mem_iff.mp (e ▸ hw))
      refine ⟨a :: front, rest, by rw [e]; rfl, fun w hw => ?_, fun w hw => ?_, hp.head fun w hw => away w (by simp [hw])⟩
      · simp [away w (by simp [hw]), hr w hw]
      · rcases List.mem_cons.mp hw with rfl | hw
        · simp
        · exact List.mem_cons_of_mem _ (hf w hw)
    · next ha =>
      obtain ⟨front, rest, e, hr, hf, hp⟩ := orderWorks_split first works h
      have away : ∀ w ∈ front ++ rest, w ≠ a := fun w hw he => by
        subst he
        exact ha (by simpa using (orderWorks_perm _ _).mem_iff.mp (e ▸ hw))
      refine ⟨front, rest, e, fun w hw => ?_, fun w hw => List.mem_cons_of_mem _ (hf w hw),
        hp.cons fun w hw => away w (by simp [hw])⟩
      simp [away w (by simp [hw]), hr w hw]

/-- A line that leaves IDLE has its tracking window ended (R56). -/
theorem Line.trackAfter_leaving {x : Line} {new : CallState} (h : x.call = .idle) (k : new ≠ .idle) :
    x.trackAfter new = Tracking.empty := if_pos ⟨h, k⟩

/-- A line that is not in IDLE keeps what its tracking window holds. -/
theorem Line.trackAfter_elsewhere {x : Line} {new : CallState} (h : x.call ≠ .idle) : x.trackAfter new = x.track :=
  if_neg fun e => h e.1

/-- IDLE entered again ends no window. -/
@[simp] theorem Line.trackAfter_idle (x : Line) : x.trackAfter .idle = x.track := if_neg fun e => e.2 rfl

end Sys2Proof.Machine
end

