-- ==== Sys2Proof/Laws/Payload.lean ====
section
/-! SUPPORT. Reading back what is written into payloads (R192): bytes, two-byte quantities, line, channel, pattern and
slot fields. -/

namespace Sys2Proof.Machine

@[simp] theorem byteAt_cons_zero (b : Byte) (p : List Byte) : byteAt (b :: p) 0 = b.toNat := rfl

@[simp] theorem byteAt_cons_succ (b : Byte) (p : List Byte) (i : Nat) : byteAt (b :: p) (i + 1) = byteAt p i := rfl

theorem byteAt_cons_ofNat (b : Byte) (p : List Byte) (i : Nat) (h : 0 < i) : byteAt (b :: p) i = byteAt p (i - 1) := by
  obtain ⟨j, rfl⟩ : ∃ j, i = j + 1 := ⟨i - 1, by omega⟩
  rfl

theorem toByte_toNat {n : Nat} (h : n < 256) : (toByte n).toNat = n := by
  simp only [toByte, BitVec.toNat_ofNat]
  omega

theorem toByte_mod (n : Nat) : (toByte n).toNat = n % 256 := by simp [toByte]

/-- A two-byte quantity reads back (R192). -/
theorem twoBytes_toNat {n : Nat} (h : n < 65536) : (toByte (n / 256)).toNat * 256 + (toByte n).toNat = n := by
  rw [toByte_mod, toByte_mod]
  omega

@[simp] theorem lineByte_toNat (l : LineNo) : (lineByte l).toNat = l.val := toByte_toNat (by omega)

@[simp] theorem ofNat_line (l : LineNo) : (Fin.ofNat 16 l.val) = l := Fin.ext (Nat.mod_eq_of_lt l.isLt)

@[simp] theorem ofNat_channel (c : Channel) : (Fin.ofNat 4 c.val) = c := Fin.ext (Nat.mod_eq_of_lt c.isLt)

@[simp] theorem ofNat_pattern (p : PatternNo) : (Fin.ofNat 32 p.val) = p := Fin.ext (Nat.mod_eq_of_lt p.isLt)

@[simp] theorem ofNat_slot (i : Slot) : (Fin.ofNat 8 i.val) = i := Fin.ext (Nat.mod_eq_of_lt i.isLt)

@[simp] theorem ofNat_index (i : Fin 12) : (Fin.ofNat 12 i.val) = i := Fin.ext (Nat.mod_eq_of_lt i.isLt)

@[simp] theorem channelByte_toNat (c : Channel) : (toByte c.val).toNat = c.val := toByte_toNat (by omega)

@[simp] theorem patternByte_toNat (p : PatternNo) : (toByte p.val).toNat = p.val := toByte_toNat (by omega)

@[simp] theorem slotByte_toNat (i : Slot) : (slotByte (some i)).toNat = i.val + 1 := toByte_toNat (by omega)

@[simp] theorem flagByte_toNat (b : Bool) : (flagByte b).toNat = if b then 1 else 0 := by cases b <;> rfl

/-- A line field reads back. -/
@[simp] theorem lineAt_line (l : LineNo) (p : List Byte) : lineAt (lineByte l :: p) 0 = l := by simp [lineAt]

/-- A command that passes its checks at a ready link is carried out, and its reply joins the queue (R180). -/
theorem judge_carried (c : HostCmd) (p : List Byte) (s : State) (h1 : lengthFits c p.length = true)
    (h2 : firstFailing (fieldChecks c p) = none) : s.judge c p = s.carry c p := by simp [State.judge, h1, h2]

/-- The reply to a failing field, in the terms of the statements (R194, R195). -/
theorem badField_eq (c : HostCmd) (p : List Byte) (o : Nat) :
    badField c p o = Status.badField.code :: fieldDetail c p o := by
  have h : byteAt p 0 = 2 ↔ p.head? = some 2 := by
    cases p with
    | nil => simp [byteAt]
    | cons b _ => simp [byteAt, BitVec.toNat_eq]
  unfold badField fieldDetail
  simp only [h]
  split <;> rfl

/-- A command whose length fits and whose field fails is refused with that field, and changes nothing (R180). -/
theorem judge_badField (c : HostCmd) (p : List Byte) (s : State) (o : Nat) (h1 : lengthFits c p.length = true)
    (h2 : firstFailing (fieldChecks c p) = some o) : s.judge c p = (s, badField c p o) := by
  simp [State.judge, h1, h2, badField_eq, State.refuse]

end Sys2Proof.Machine
end

