-- ==== Sys2Proof/Laws/Placement.lean ====
section
/-! SUPPORT. What a placement leaves of each part of the state (R129, R131, R166), for the searches and the walks that
end in one. -/

namespace Sys2Proof.Machine.State

variable (l : LineNo) (e : Entry) (φ : Nat) (s : State)

/-- A RING report changes the link alone. -/
@[simp] theorem markRing_arb (ev : RingEvent) (c : Option SuspendCause) (w p : Nat) :
    (s.markRing l ev c e w p).arb = s.arb := by
  simp [markRing]

@[simp] theorem markRing_boundary (ev : RingEvent) (c : Option SuspendCause) (w p : Nat) :
    (s.markRing l ev c e w p).boundary = s.boundary := by
  simp [markRing]

@[simp] theorem line_markRing (ev : RingEvent) (c : Option SuspendCause) (w p : Nat) (m : LineNo) :
    (s.markRing l ev c e w p).line m = s.line m := by
  simp [markRing]

/-- The placement notice touches the run of a TEST entry's line alone. -/
@[simp] theorem placementNotice_arb : (s.placementNotice l e).arb = s.arb := by
  unfold placementNotice
  split <;> rfl

@[simp] theorem placementNotice_boundary : (s.placementNotice l e).boundary = s.boundary := by
  unfold placementNotice
  split <;> rfl

/-- The arbiter after a placement (R129). -/
theorem placeEntry_arb : (s.placeEntry l e φ).arb =
    { s.arb with
      rows := s.arb.rows.set l (some (e.placedAt φ))
      profile := s.profileWith e φ
      placedOrder := s.arb.placedOrder.filter (· != l) ++ [l]
      waitQueue := s.arb.waitQueue.filter (· != l) } := by
  unfold placeEntry
  dsimp only
  split <;> simp

/-- A placed line is no longer one that stood in the queue (R134). -/
theorem placeEntry_boundary : (s.placeEntry l e φ).boundary = s.boundary.map fun b => b.without l := by
  unfold placeEntry
  dsimp only
  split <;> simp

/-- The rows after a placement. -/
theorem row_placeEntry (m : LineNo) :
    (s.placeEntry l e φ).row m = if m = l then some (e.placedAt φ) else s.row m := by
  simp [row, placeEntry_arb, Tab.get_set]

/-- The lines after a placement: a TEST entry's run goes to RING (R166). -/
theorem line_placeEntry (m : LineNo) : (s.placeEntry l e φ).line m =
    if m = l ∧ e.reqType = .test then { s.line l with run := (s.line l).run.map fun r => { r with phase := .ring } }
    else s.line m := by
  unfold placeEntry placementNotice
  cases e.reqType <;> dsimp only <;> split <;> simp

end Sys2Proof.Machine.State
end

