-- ==== Sys2Proof/Laws/Search.lean ====
section
/-! SUPPORT. The first line, slot or pattern with a property: what a search along the ascending lists finds. -/

namespace Sys2Proof.Machine

theorem lineNos_eq : lineNos = List.finRange 16 := by decide

theorem slots_eq : slots = List.finRange 8 := by decide

theorem channels_eq : channels = List.finRange 4 := by decide

theorem patterns_eq : patterns = List.finRange 32 := by decide

@[simp] theorem mem_lineNos (l : LineNo) : l ∈ lineNos := by rw [lineNos_eq]; exact List.mem_finRange l

@[simp] theorem mem_slots (i : Slot) : i ∈ slots := by rw [slots_eq]; exact List.mem_finRange i

@[simp] theorem mem_channels (c : Channel) : c ∈ channels := by rw [channels_eq]; exact List.mem_finRange c

@[simp] theorem mem_patterns (p : PatternNo) : p ∈ patterns := by rw [patterns_eq]; exact List.mem_finRange p

/-- A search along a rising list finds the lowest index with the property. -/
theorem find_rising {n : Nat} {p : Fin n → Bool} {i : Fin n} (h : p i = true) (hm : ∀ k, p k = true → i ≤ k) :
    ∀ l : List (Fin n), l.Pairwise (· < ·) → i ∈ l → l.find? p = some i
  | [], _, hi => by simp at hi
  | a :: l, hs, hi => by
    rw [List.find?_cons]
    by_cases ha : p a = true
    · rw [ha]
      rcases List.mem_cons.1 hi with rfl | h2
      · rfl
      · have h3 := (List.pairwise_cons.1 hs).1 i h2
        exact absurd (hm a ha) (by simpa using h3)
    · have hf : p a = false := by simpa using ha
      rw [hf]
      rcases List.mem_cons.1 hi with rfl | h2
      · exact absurd h ha
      · exact find_rising h hm l (List.pairwise_cons.1 hs).2 h2

theorem find_line {p : LineNo → Bool} {i : LineNo} (h : p i = true) (hm : ∀ k, p k = true → i ≤ k) :
    lineNos.find? p = some i := find_rising h hm lineNos (by decide) (mem_lineNos i)

theorem find_line_none {p : LineNo → Bool} : lineNos.find? p = none ↔ ∀ k, p k = false := by
  rw [lineNos_eq, List.find?_eq_none]
  simp

theorem find_slot {p : Slot → Bool} {i : Slot} (h : p i = true) (hm : ∀ k, p k = true → i ≤ k) :
    slots.find? p = some i := find_rising h hm slots (by decide) (mem_slots i)

theorem find_slot_none {p : Slot → Bool} : slots.find? p = none ↔ ∀ k, p k = false := by
  rw [slots_eq, List.find?_eq_none]
  simp

theorem find_channel {p : Channel → Bool} {i : Channel} (h : p i = true) (hm : ∀ k, p k = true → i ≤ k) :
    channels.find? p = some i := find_rising h hm channels (by decide) (mem_channels i)

theorem find_channel_none {p : Channel → Bool} : channels.find? p = none ↔ ∀ k, p k = false := by
  rw [channels_eq, List.find?_eq_none]
  simp

theorem find_pattern {p : PatternNo → Bool} {i : PatternNo} (h : p i = true) (hm : ∀ k, p k = true → i ≤ k) :
    patterns.find? p = some i := by
  rw [patterns_eq]
  exact find_rising h hm _ (List.pairwise_lt_finRange 32) (List.mem_finRange i)

theorem find_pattern_none {p : PatternNo → Bool} : patterns.find? p = none ↔ ∀ k, p k = false := by
  rw [patterns_eq, List.find?_eq_none]
  simp

end Sys2Proof.Machine
end

