-- ==== Sys2Proof/Laws/Stages.lean ====
section
/-! SUPPORT. How the parts of the arbiter's work at a frame boundary follow one another (R132): what a run through the
parts does with no work held, with a part already past, and with a part still to come. -/

namespace Sys2Proof.Machine.State

variable {s : State} {b : Boundary} {last : Stage}

theorem runUpTo_none (fuel : Nat) (h : s.boundary = none) : s.runUpTo last fuel = s := by
  cases fuel with
  | zero => rfl
  | succ n => simp [runUpTo, h]

theorem runUpTo_past (fuel : Nat) (h : s.boundary = some b) (past : last.rank < b.next.rank) :
    s.runUpTo last fuel = s := by
  cases fuel with
  | zero => rfl
  | succ n => simp [runUpTo, h, Nat.not_le.mpr past]

/-- The next part is taken, and the run goes on in the state that it leaves. -/
theorem runUpTo_next (fuel : Nat) (h : s.boundary = some b) (ahead : b.next.rank ≤ last.rank) :
    s.runUpTo last (fuel + 1) = (s.runStage b).runUpTo last fuel := by
  simp [runUpTo, h, ahead]

/-- Every part is at or before the last one. -/
theorem rank_le_last (g : Stage) : g.rank ≤ Stage.standbyCounting.rank := by
  cases g <;> decide

/-- With no boundary's work held there is none to do. -/
theorem runBoundary_none (h : s.boundary = none) : s.runBoundary = s := runUpTo_none 5 h

end Sys2Proof.Machine.State
end

