-- ==== Sys2Proof/WellFormed.lean ====
section
/-! DEFINITION. Which commands can reach the part at all: the payload of a frame is at most 60 bytes (R176), a
BAD_KIND frame has a kind that is no command kind (R180), and readings are in the range a line circuit gives
(00_scope.md). Field ranges of a payload are not checked here: the part judges them itself (R194). -/

namespace Sys2Proof

/-- A payload that a frame can carry (R176). -/
def payloadFits (p : List Byte) : Bool := p.length ≤ Config.payloadLimit

/-- Readings that a line circuit can give: the loop current is 0-1023 (00_scope.md); the other currents fit the
two-byte quantities in which the part sends their averages (R192, R199; PRESUMED, log 23). -/
def Reading.inRange (r : Reading) : Bool :=
  r.loop ≤ Config.readingLimit && r.ac ≤ Config.twoByteLimit && r.dc ≤ Config.twoByteLimit
    && r.tip ≤ Config.twoByteLimit && r.ring ≤ Config.twoByteLimit

/-- Well-formed commands. -/
def Instr.wellFormed : Instr → Bool
  | .hardReset _ => true
  | .deviceStatus _ p | .softReset _ p | .reportMask _ p | .timersSet _ p | .timebaseSet _ p | .supplySet _ p
  | .supplyTiming _ p | .arbiterSet _ p | .arbiterRead _ p | .partyWrite _ p | .partyRead _ p
  | .alarmIdentity _ p | .planCommit _ p | .planDiscard _ p | .lineOptions _ p | .lineLevels _ p
  | .lineLoads _ p | .lineLock _ p | .numberingSet _ p | .numberingRead _ p | .lineStatus _ p
  | .callRecordRead _ p | .cadenceOpen _ p | .cadencePut _ p | .cadenceStore _ p | .cadenceRead _ p
  | .cadenceClear _ p | .dialplanWrite _ p | .dialplanRead _ p | .ringParty _ p | .ringCancel _ p
  | .connect _ p | .reject _ p | .disconnect _ p | .lineRelease _ p | .alarmRing _ p | .alarmStop _ p
  | .testAccess _ p | .testRelease _ p | .calibrate _ p | .calibrateCancel _ p => payloadFits p
  | .badKind k _ p => (Machine.HostCmd.ofCode k).isNone && payloadFits p
  | .scan _ r | .offHook _ r | .onHook _ r | .digitComplete _ r | .partyTestResult _ r
  | .trackingWindowClose _ r | .ringTrip _ r | .leakComplete _ r => r.inRange
  | .stepEvent _ _ | .fsyncPulse | .followerWindowUnmet _ _ | .callTimerExpiry _ | .pendingAlarmStart _
  | .alarmCountEnd _ | .planActivation _ | .eviction | .queueWalk | .ringDelayed _ | .warmUpEnd
  | .standbyTimeout | .faultAssertion _ | .faultRelease _ | .calibrationWaitLimit _ | .byteReceived _ _
  | .gap | .frameSent | .firstFaultSample _ => true

end Sys2Proof
end

