-- ==== Sys2Proof/Tests/Slice0.lean ====
section
/-! SUPPORT. The model's own tests: what WellFormed refuses, small cases from the spec's examples, and for each
statement with hypotheses a witness that they can be met together. -/

namespace Sys2Proof.Tests

set_option Elab.async false

open Sys2Proof Sys2Proof.Machine

/-! ### Small states -/

/-- The commands in order, from a state; every command answers a next state. -/
def after : List Instr → State → State
  | [], s => s
  | i :: is, s =>
    match exec i s with
    | .next t => after is t
    | .fault _ | .refused _ => s

/-- A scan's readings: the loop current and the DC component, all other currents 0. -/
def reads (loop dc : Nat) : Reading := ⟨true, loop, 0, dc, 0, 0⟩

/-- A table with one bridged party in slot 3 on channel 1, the built-in pattern, and an alarm on channel 1, pattern 0. -/
def bells : PartyTable := ⟨(Tab.fill PartyEntry.reset).set 2 ⟨true, .bridged, 1, 0, true⟩, 1, some 0⟩

/-- A fitted, enabled, idle line with that table and load 3 on channel 1. -/
def home : Line :=
  { Line.reset with
    presentSeen := true, fitted := true, opts := 1, call := .idle, staged := bells, active := bells
    loads := (Tab.fill 0).set 1 3 }

/-- Hard reset, with the supply ON, capacity 6 everywhere and the fault inputs sampled. -/
def lit : State :=
  { State.reset with
    arb := { Arbiter.reset with supply := .on, caps := Tab.fill (Tab.fill 6), faultSampled := true } }

/-- Line 4 as given, in the lit part. -/
def house (x : Line) : State := lit.setLine 4 x

/-- A call record of a kind, opened at stamp 0. -/
def opened (k : RecordKind) : Record := ⟨k, none, some 2, none, ⟨[], false⟩, 0, none, 0, none, 0, false⟩

/-- Line 4 in a call state with a record open and the receiver off. -/
def inCall (c : CallState) : Line :=
  { home with call := c, record := some (opened .originated), hook := ⟨.offhook, 0, 0, 0, 0⟩ }

/-- Line 4 in a call state and a hook position. -/
def hooked (c : CallState) (h : Hook) : Line := { inCall c with hook := h }

/-- A play record in a burst that is one scan from a ring trip. -/
def ringingPlay : Play := ⟨some ⟨.bridged, 1⟩, 3, 5, 2, true, 0, 0, 0⟩

/-- A calibration run in a phase, for channels 0 and 2. -/
def runIn (p : CalPhase) : Run :=
  ⟨.midpoint, 0b0101, some (20, 600), none, p, 99, 0, some 47, 2, 20, 9, (Tab.fill none).set 0 (some (252, 66))⟩

/-- The lit part with line 4 rung at offset 0 of pattern 0. -/
def rung : State := after [.ringParty 7 [0, 4, 3, 0, 0]] (house home)

/-- The lit part with a WAITING entry of line 4, for want of capacity. -/
def waiting : State :=
  after [.ringParty 7 [0, 4, 3, 0, 0]]
    { house home with arb := { lit.arb with caps := Tab.fill (Tab.fill 2) } }

/-- A frame boundary whose arbiter work stands before a part. -/
def boundaryAt (st : Stage) (s : State) : State := { s with boundary := some ⟨st, [4], false⟩ }

/-- The link's assembler in a state. -/
def receiving (r : Receiver) : State := { State.reset with link := { Link.reset .b9600 with receiver := r } }

/-- A frame on the wire. -/
def sending (s : State) : State := { s with link := { s.link with tx := some ⟨0x60, 0, []⟩ } }

/-- The reply queue full, a frame on the wire, and so many frames waiting. -/
def jammed (n : Nat) : State :=
  { State.reset with
    link := { Link.reset .b9600 with
      replies := List.replicate 4 ⟨0x81, 0, []⟩, tx := some ⟨0x81, 0, []⟩, intake := List.replicate n ⟨1, 0, []⟩ } }

/-! ### WellFormed refuses each kind of ill-formed command -/

theorem test_wf_payload_too_long : (Instr.deviceStatus 0 (List.replicate 61 0)).wellFormed = false := by decide +kernel
theorem test_wf_payload_longest : (Instr.deviceStatus 0 (List.replicate 60 0)).wellFormed = true := by decide +kernel
theorem test_wf_badKind_of_a_command : (Instr.badKind 0x3B 0 []).wellFormed = false := by decide +kernel
theorem test_wf_badKind_too_long : (Instr.badKind 0x81 0 (List.replicate 61 0)).wellFormed = false := by decide +kernel
theorem test_wf_badKind : (Instr.badKind 0x81 0 []).wellFormed = true := by decide +kernel
theorem test_wf_loop : (Instr.scan 0 ⟨true, 1024, 0, 0, 0, 0⟩).wellFormed = false := by decide +kernel
theorem test_wf_ac : (Instr.offHook 0 ⟨true, 0, 65536, 0, 0, 0⟩).wellFormed = false := by decide +kernel
theorem test_wf_dc : (Instr.ringTrip 0 ⟨true, 0, 0, 65536, 0, 0⟩).wellFormed = false := by decide +kernel
theorem test_wf_tip : (Instr.partyTestResult 0 ⟨true, 0, 0, 0, 65536, 0⟩).wellFormed = false := by decide +kernel
theorem test_wf_ring : (Instr.partyTestResult 0 ⟨true, 0, 0, 0, 0, 65536⟩).wellFormed = false := by decide +kernel
theorem test_wf_readings : (Instr.scan 15 ⟨true, 1023, 65535, 65535, 65535, 65535⟩).wellFormed = true := by
  decide +kernel

/-! ### The queue -/

/-- No word spells a command, and so none joins the queue. -/
theorem test_no_word_is_a_command : decodeTableWord 8 0x12 = none ∧ State.reset.withFetchWord 8 0x12 = State.reset := by
  decide +kernel

/-- The queue is taken from its front. -/
theorem test_queue_front :
    (match step (State.reset.withPending [.timebaseSet 1 [1], .fsyncPulse]) with
     | .next t => t.pending == [.fsyncPulse] && t.timebase.role == .master
     | .fault _ | .refused _ => false) = true := by decide +kernel

/-! ### Cases of the spec's examples -/

/-- Worked Sequences, the reverting call: tip 84, 86, 88 and ring 9, 8, 10 give TIP. -/
theorem test_party_test_example :
    ((after [.scan 4 ⟨true, 0, 0, 0, 84, 9⟩, .scan 4 ⟨true, 0, 0, 0, 86, 8⟩, .partyTestResult 4 ⟨true, 0, 0, 0, 88, 10⟩]
      (house { inCall .ident with test := ⟨true, 0, 0, 0⟩ })).line 4).record.map (·.idResult) = some (some .tip) := by
  decide +kernel

/-- Worked Sequences, the terminating call: with line 9 on channel 1 at 0-9, candidate 0 and 5 fail and 10 fits. -/
theorem test_admission_example :
    let code : List Segment := [⟨true, 15⟩, ⟨false, 5⟩, ⟨true, 5⟩, ⟨false, 5⟩, ⟨true, 5⟩, ⟨false, 25⟩]
    let s := { lit with cadence := cadenceReset.set 2 (some code) }
    let t := s.request 9 ⟨.ordinary, .terminating, ⟨.bridged, 1, 0, 4⟩, none, .waiting, 0, false⟩
    t.search ⟨.ordinary, .terminating, ⟨.bridged, 1, 2, 3⟩, none, .waiting, 0, false⟩ = some 10 := by decide +kernel

/-- Worked Sequences, the calibration: loads 5 and 0, threshold 99. -/
theorem test_calibration_example :
    let run := { runIn .ring with bounds := none }
    let x := ((house { home with call := .calibrating, baseline := 45, run := some run }).burstEnd 4 80 0 47).line 4
    x.baseline = 47 ∧ x.loads.get 0 = 5 ∧ x.loads.get 2 = 0 ∧ x.tripThreshold = 99 ∧ x.calStatus = .done := by
  decide +kernel

/-- Trip Calibration, the working out: with unit current 10 and 450 on channel 0, OVERLOAD names channel 0 (log 14). -/
theorem test_overload_channel :
    let s := { lit with arb := { lit.arb with unitCurrent := 10 } }
    let meas : Tab 4 (Option (Nat × Nat)) := (Tab.fill none).set 0 (some (450, 61))
    let run := { runIn .ring with mask := 0b0011, channel := 1, meas := meas }
    let t := (s.setLine 4 { home with call := .calibrating, run := some run }).burstEnd 4 80 183 48
    (t.line 4).calCause = some .overload
      ∧ ((t.link.slots.get 4).get 7).map (fun d => (d.getD 2 0, d.getD 5 0)) = some (4, 0) := by decide +kernel

/-- R101: prefix 1 and tail 1, REVERT_PARTY, completes on 1 3. -/
theorem test_dial_plan_example :
    judgeDigits ((Tab.fill DialEntry.reset).set 1 ⟨true, [1], 1, .revertParty⟩) [1] = .collect
      ∧ judgeDigits ((Tab.fill DialEntry.reset).set 1 ⟨true, [1], 1, .revertParty⟩) [1, 3] = .complete .revertParty := by
  decide +kernel

/-- R35: a LOCKED follower whose window closes unmet goes to HOLDOVER. -/
theorem test_holdover :
    (after (.stepEvent [] [] :: List.replicate 10 (.scan 4 (reads 0 0)) ++ [.followerWindowUnmet [] []])
      { State.reset with timebase := { Timebase.reset with
          position := 59, role := .follower, follower := some .locked, stepDue := true } }).timebase.follower
      = some .holdover := by decide +kernel

/-- The scan count, the stamp and whether a step event is due. -/
def pace (s : State) : Nat × Stamp × Bool := (s.timebase.scanCount, s.timebase.stamp, s.timebase.stepDue)

/-- R31, R40: after reset a STEP_EVENT changes nothing before the tenth scan; the tenth makes one due, in which other lines
may be scanned before or after it; and an eleventh scan of a line takes the step event that was not sent, then counts. -/
theorem test_tenth_scan :
    let ten := List.replicate 10 (Instr.scan 4 (reads 0 0))
    let early := .stepEvent [] [] :: ten.take 9
    pace (after early State.reset) = (9, 0, false) ∧ pace (after (early ++ [.stepEvent [] []]) State.reset) = (9, 0, false)
      ∧ pace (after ten State.reset) = (9, 0, true) ∧ pace (after (ten ++ [.scan 5 (reads 0 0)]) State.reset) = (9, 0, true)
      ∧ pace (after (ten ++ [.stepEvent [] [], .scan 5 (reads 0 0)]) State.reset) = (0, 1, false)
      ∧ pace (after (ten ++ [.scan 4 (reads 0 0)]) State.reset) = (1, 1, false) := by decide +kernel

/-- R184: the frame of DEVICE_STATUS, tag 0, is C3 02 01 00 FD, and its bytes bring the reply. -/
theorem test_frame_bytes :
    Frame.wire ⟨0x01, 0, []⟩ = [0xC3, 0x02, 0x01, 0x00, 0xFD]
      ∧ ((after ((Frame.wire ⟨0x01, 0, []⟩).map fun b => .byteReceived b true) State.reset).link.tx.map (·.kind)) = some 0x81 := by
  decide +kernel

/-! ### Witnesses: the hypotheses of each statement can be met -/

/-- A command can be taken at once. -/
theorem witness_ready : State.reset.ready ∧ lit.ready ∧ (house home).ready := by
  unfold State.ready
  decide +kernel

/-- FramesAreJudgedInOrder: a kind that is no command kind, a wrong length, a field out of range, a good payload, and
reads of the arbiter refused with and without the offset. -/
theorem witness_FramesAreJudgedInOrder :
    (∀ c : HostCmd, c.code ≠ 0x00) ∧ (∀ c : HostCmd, c.code ≠ 0x3C) ∧ lengthFits .timebaseSet 0 = false
      ∧ lengthFits .timebaseSet 2 = false ∧ lengthFits .timebaseSet 1 = true
      ∧ firstFailing (fieldChecks .timebaseSet [3]) = some 0 ∧ firstFailing (fieldChecks .timebaseSet [2]) = none
      ∧ firstFailing (fieldChecks .arbiterRead [2, 4, 0]) = some 1 ∧ badField .arbiterRead [2, 4, 0] 1 = [0x03]
      ∧ firstFailing (fieldChecks .arbiterRead [1, 16, 0]) = some 1 ∧ badField .arbiterRead [1, 16, 0] 1 = [0x03, 1] := by
  refine ⟨fun c => ?_, fun c => ?_, by decide +kernel⟩ <;> cases c <;> decide

/-- AssemblerFollowsItsTable: each receiver state, and the lengths 1, 2, 62 and 63. -/
theorem witness_AssemblerFollowsItsTable :
    (receiving .hunt).link.receiver = .hunt ∧ (receiving .length).link.receiver = .length
      ∧ (receiving (.body 2 [1] 3)).link.receiver = .body 2 [1] 3
      ∧ (receiving (.check [1, 0] 3)).link.receiver = .check [1, 0] 3
      ∧ (2 ≤ (2 : Byte).toNat ∧ (62 : Byte).toNat ≤ 62) ∧ (1 : Byte).toNat < 2 ∧ 62 < (63 : Byte).toNat
      ∧ (3 + (253 : Byte).toNat) % 256 = 0 ∧ (3 + (254 : Byte).toNat) % 256 ≠ 0 := by decide +kernel

/-- FullQueuesAndLinkFaults: three and four frames waiting behind a full reply queue, and LINK in and out of the mask. -/
theorem witness_FullQueuesAndLinkFaults :
    (jammed 3).link.replies.length = 4 ∧ (jammed 3).link.tx = some ⟨0x81, 0, []⟩ ∧ (jammed 3).link.intake.length < 4
      ∧ (jammed 4).link.intake.length = 4 ∧ kindIn .link State.reset.link.mask = true
      ∧ kindIn .link (0 : BitVec 14) = false := by decide +kernel

/-- CommandFrameByByteIsCommand: the longest payload and the empty one; a busy transmitter and an idle one. -/
theorem witness_CommandFrameByByteIsCommand :
    (List.replicate 60 (0 : Byte)).length ≤ 60 ∧ ([] : List Byte).length ≤ 60 ∧ (sending State.reset).link.receiver = .hunt
      ∧ (sending State.reset).link.intake = [] ∧ (sending State.reset).link.tx ≠ none
      ∧ State.reset.link.tx = none ∧ State.reset.link.replies = [] ∧ (∀ e, State.reset.link.pendingSets.get e = 0) := by
  decide +kernel

/-- FrameSentChoosesNext: a reply waits; nothing is pending; the device entry or line 0 comes next; and frames of each
judgement wait behind a full reply queue. -/
theorem witness_FrameSentChoosesNext :
    let a := sending (State.reset.pushReply ⟨0x81, 0, []⟩)
    let b := sending State.reset
    let c := sending (State.reset.markDevice .sync [0, 0, 0, 0, 0, 0])
    a.link.tx ≠ none ∧ a.link.intake = [] ∧ a.link.replies = [⟨0x81, 0, []⟩]
      ∧ b.link.replies = [] ∧ (∀ e, b.link.pendingSets.get e = 0)
      ∧ c.link.replies = [] ∧ (∀ i : Fin 17, i < 16 → c.link.pendingSets.get (c.link.lastServed + 1 + i) = 0)
      ∧ kindIn .sync (c.link.pendingSets.get (c.link.lastServed + 1 + 16)) = true
      ∧ (jammed 4).link.intake = ⟨1, 0, []⟩ :: List.replicate 3 ⟨1, 0, []⟩
      ∧ (jammed 4).link.replies = ⟨0x81, 0, []⟩ :: List.replicate 3 ⟨0x81, 0, []⟩ ∧ (jammed 4).link.tx ≠ none
      ∧ HostCmd.code .deviceStatus = 1 ∧ lengthFits .deviceStatus 0 = true ∧ firstFailing (fieldChecks .deviceStatus []) = none
      ∧ lengthFits .deviceStatus 1 = false := by decide +kernel

/-- MarkingLatchesEnabledKinds: a kind in the mask and one out of it. -/
theorem witness_MarkingLatchesEnabledKinds :
    kindIn .state State.reset.link.mask = true
      ∧ kindIn .state { State.reset.link with mask := 0 }.mask = false := by decide +kernel

/-- DeviceReadsReturnTheState: an empty and a held row, an EMPTY and a DEFINED slot. -/
theorem witness_DeviceReadsReturnTheState :
    rung.link.intake = [] ∧ rung.link.replies.length < 4 ∧ rung.row 0 = none ∧ rung.row 4 ≠ none
      ∧ rung.cadence.get 1 = none ∧ rung.cadence.get 0 ≠ none := by decide +kernel

/-- SoftResetOfEveryBlock: a line without a run and one with one. -/
theorem witness_SoftResetOfEveryBlock :
    let s := house { home with call := .calibrating, run := some (runIn .leak) }
    s.link.intake = [] ∧ s.link.replies.length < 4 ∧ (s.line 0).run = none ∧ (s.line 4).run ≠ none := by decide +kernel

/-- SettingsAreReplacedTogether: the lowest and the highest settings. -/
theorem witness_SettingsAreReplacedTogether :
    (fieldChecks .timersSet [0, 1, 0, 1, 0, 1, 0, 5, 0, 10, 0, 10, 0, 5, 10, 0, 40]).all (·.1) = true
      ∧ (fieldChecks .timersSet [0, 60, 0, 30, 0, 30, 0, 120, 2, 88, 2, 88, 0, 120, 255, 2, 88]).all (·.1) = true
      ∧ 120 % 1 = 0 ∧ 120 % 120 = 0 := by decide +kernel

/-- RoleChangesBySet: the role named again, and another. -/
theorem witness_RoleChangesBySet :
    State.reset.timebase.role = .alone ∧ State.reset.timebase.role ≠ .follower := by decide +kernel

/-- StagedTableEdits: a locked line, a line with a commit pending, a free one. -/
theorem witness_StagedTableEdits :
    let s := (house { home with lock := true }).setLine 5 { home with commitPending := true }
    (s.line 4).lock = true ∧ (s.line 5).lock = false ∧ (s.line 5).commitPending = true
      ∧ (s.line 6).lock = false ∧ (s.line 6).commitPending = false ∧ s.link.intake = [] ∧ s.link.replies = [] := by
  decide +kernel

/-- PlanCommitAndDiscard: two equal identities in the first and last slot; a pattern that is not DEFINED; a good table. -/
theorem witness_PlanCommitAndDiscard :
    let e : PartyEntry := ⟨true, .tip, 0, 31, false⟩
    let twice : PartyTable := ⟨((Tab.fill PartyEntry.reset).set 0 e).set 7 e, 0, none⟩
    let once : PartyTable := ⟨(Tab.fill PartyEntry.reset).set 7 e, 0, none⟩
    twice.ambiguous = some (0, 7) ∧ once.ambiguous = none ∧ State.reset.undefinedReference once = some 31
      ∧ bells.ambiguous = none ∧ State.reset.undefinedReference bells = none := by decide +kernel

/-- LevelsAndLoadsAreReplaced: a calibrating line, a line with an entry, and a line with neither. -/
theorem witness_LevelsAndLoadsAreReplaced :
    ((house { home with call := .calibrating }).line 4).call = .calibrating ∧ (rung.line 4).call ≠ .calibrating
      ∧ rung.row 4 ≠ none ∧ rung.row 0 = none ∧ (rung.line 0).call ≠ .calibrating := by decide +kernel

/-- LockTakesLinesWithoutCommit: lines in and out of the set, with and without a commit pending. -/
theorem witness_LockTakesLinesWithoutCommit :
    let s := house { home with commitPending := true }
    (0x8010 : BitVec 16).getLsbD 4 = true ∧ (0x8010 : BitVec 16).getLsbD 15 = true ∧ (0x8010 : BitVec 16).getLsbD 0 = false
      ∧ (s.line 4).commitPending = true ∧ (s.line 15).commitPending = false := by decide +kernel

/-- OptionsTakenLineByLine: ENABLED set on a DISABLED fitted line, and cleared on a line with an entry. -/
theorem witness_OptionsTakenLineByLine :
    let s := rung.setLine 15 { Line.reset with fitted := true }
    (s.line 15).call = .disabled ∧ (s.line 15).fitted = true ∧ (s.line 15).opts.getLsbD 0 = false
      ∧ (s.line 4).opts.getLsbD 0 = true ∧ s.row 4 ≠ none ∧ s.row 15 = none := by decide +kernel

/-- NumberingReplacedAndDecoded: boundaries too high, falling, and good; a locked line's range that moves and one that
stays; a suffix below, in and beyond the first eight of a run. -/
theorem witness_NumberingReplacedAndDecoded :
    let nine : Tab 16 Nat := Tab.fill 9
    let s := { State.reset with numbering := nine }
    ordered (Tab.fill 1001) = false ∧ ordered (nine.set 15 8) = false ∧ ordered nine = true
      ∧ (nine.get 0 ≠ State.reset.numbering.get 0) ∧ s.numbering.get 15 ≤ 9
      ∧ lowerOf s.numbering 0 + 8 ≤ 8 ∧ 8 < s.numbering.get 0 ∧ 7 = lowerOf s.numbering 0 + (7 : Slot).val := by
  decide +kernel

/-- EditBufferTakesSegments: unbound; bound and empty; twelve segments held; a sum of 60. -/
theorem witness_EditBufferTakesSegments :
    State.reset.edit.bound = none ∧ (⟨some 31, []⟩ : EditBuffer).bound = some 31
      ∧ 12 ≤ (List.replicate 12 (⟨true, 1⟩ : Segment)).length
      ∧ 60 < durSum [⟨true, 60⟩] + (⟨false, 1⟩ : Segment).dur := by decide +kernel

/-- PatternsInUseAreKept: a pattern named by a table, by an entry, and by none. -/
theorem witness_PatternsInUseAreKept :
    let e : Entry := ⟨.ordinary, .terminating, ⟨.tip, 0, 31, 1⟩, none, .waiting, 0, false⟩
    let s := { rung.setRow 5 (some e) with edit := ⟨some 31, [⟨true, 60⟩]⟩ }
    s.row 5 = some e ∧ e.voiceA.pattern = 31 ∧ durSum s.edit.segs = 60 ∧ s.edit.bound = some 31
      ∧ durSum ([⟨true, 59⟩] : List Segment) < 60 ∧ State.reset.cadence.get 1 = none
      ∧ (∀ l, (State.reset.line l).active.alarmPattern ≠ some 1) := by decide +kernel

/-- DialPlanEntryReplaced: the longest entry, and an entry of each revert action. -/
theorem witness_DialPlanEntryReplaced :
    ([1, 2, 3, 4] : List Digit).length + ([] : List Nat).length = 4 ∧ ([1, 2, 3, 4] : List Digit).length + 4 ≤ 8
      ∧ ([1] : List Digit).length + [15, 15, 15].length = 4 ∧ 1 ≤ ([] : List Digit).length + 1 := by decide +kernel

/-- RingPartyOpensATerminatingCall: not fitted; not enabled; busy; an absent slot; no load; accepted, and a suffix that
names the party. -/
theorem witness_RingPartyOpensATerminatingCall :
    let s := { house home with numbering := (Tab.fill 8 : Tab 16 Nat).set 0 0 |>.set 1 0 |>.set 2 0 |>.set 3 0 }
    (State.reset.line 4).fitted = false ∧ ((house { home with opts := 0 }).line 4).enabled = false
      ∧ (rung.line 4).call ≠ .idle ∧ ((house home).line 4).call = .idle
      ∧ (((house home).line 4).active.entries.get 0).present = false
      ∧ (((house home).line 4).active.entries.get 2).present = true
      ∧ ((house { home with loads := Tab.fill 0 }).line 4).loads.get 1 = 0 ∧ ((house home).line 4).loads.get 1 = 3
      ∧ s.decodeSuffix 2 = some (4, 2) ∧ s.decodeSuffix 999 = none := by decide +kernel

/-- CallsEndedByTheHost, ConnectLeadsToExchange and TestAccessSavesTheState: each of their call states, with its record. -/
theorem witness_calls :
    (∀ c : CallState, (house (inCall c)).link.intake = [] ∧ (house (inCall c)).link.replies = []
      ∧ ((house (inCall c)).line 4).call = c ∧ ((house (inCall c)).line 4).record = some (opened .originated)
      ∧ ((house (inCall c)).line 4).hook.state = .offhook)
    ∧ ((house { inCall .test with saved := some .lockout }).line 4).saved = some .lockout
    ∧ ((house { inCall .exchWait with out := ⟨[1], false, false⟩ }).line 4).out.digits ≠ [] := by
  refine ⟨fun c => ?_, by decide +kernel⟩
  cases c <;> decide +kernel

/-- AlarmsStartAndStopLineByLine: DISABLED, no alarm identity, IDLE, another state, and an alarm pending. -/
theorem witness_AlarmsStartAndStopLineByLine :
    (State.reset.line 0).call = .disabled
      ∧ ((house { home with active := { bells with alarmPattern := none } }).line 4).active.alarmPattern = none
      ∧ ((house home).line 4).call = .idle ∧ ((house home).line 4).active.alarmPattern = some 0
      ∧ ((house home).line 4).loads.get 1 ≠ 0 ∧ (rung.line 4).call = .termRing
      ∧ ((house { home with alarmPending := some 255 }).line 4).alarmPending ≠ none := by decide +kernel

/-- CalibrationOpensAndCancels: DISABLED, IDLE, CALIBRATING with a run; the bounds 20 to 600. -/
theorem witness_CalibrationOpensAndCancels :
    (State.reset.line 4).call = .disabled ∧ ((house home).line 4).call = .idle
      ∧ ((house { home with call := .calibrating, run := some (runIn .leak) }).line 4).run = some (runIn .leak)
      ∧ (fieldChecks .calibrate [4, 1, 15, 1, 0, 20, 2, 88, 2, 88]).all (·.1) = true
      ∧ (fieldChecks .calibrate [4, 0, 1, 0, 0, 0, 0, 0, 0, 0]).all (·.1) = true := by decide +kernel

/-- PresentIndicationIsFollowed: a line not fitted before and after its first reading, and a loss with a record open. -/
theorem witness_PresentIndicationIsFollowed :
    (State.reset.line 4).fitted = false ∧ (State.reset.line 4).presentSeen = false
      ∧ ((house { Line.reset with presentSeen := true }).line 4).presentSeen = true
      ∧ ((house (inCall .exchange)).line 4).fitted = true ∧ ((house (inCall .exchange)).line 4).record ≠ none := by
  decide +kernel

/-- HookMachineFollowsItsTable: a scan that reaches the machine, lines whose machine is suspended, and scans that give a
pulse notice in DIAL, after 3 and 10 break scans, and a flash alone in EXCHANGE, after 11 and 89. -/
theorem witness_HookMachineFollowsItsTable :
    (house home).watched 4 (reads 80 0) ∧ (house home).makes 4 (reads 80 0) ∧ ¬(house home).makes 4 (reads 79 0)
      ∧ ((house { home with call := .test }).line 4).call = .test ∧ ((house home).line 4).run = none
      ∧ ((house { home with call := .test }).line 4).ringing = false
      ∧ (∀ n ∈ [3, 10], (house (hooked .dial ⟨.brk, 0, n, 30, 0⟩)).watched 4 (reads 80 0)
          ∧ ((⟨.brk, 0, n, 30, 0⟩ : Hook).scan true 5).2 = [.pulse])
      ∧ (∀ n ∈ [11, 89], (house (hooked .exchange ⟨.brk, 0, n, 30, 0⟩)).watched 4 (reads 80 0)
          ∧ ((⟨.brk, 0, n, 30, 0⟩ : Hook).scan true 5).2 = [.flash]) := by
  unfold State.watched State.makes
  decide +kernel

/-- LiftLeadsToAPartyTest and LiftAnswersRinging: the fifth make scan, the tenth of a LEAKY line, and a ring trip. -/
theorem witness_lifts :
    (house (hooked .idle ⟨.qualify, 4, 0, 0, 0⟩)).qualifies 4 (reads 80 0)
      ∧ (house { hooked .idle ⟨.qualify, 9, 0, 0, 0⟩ with leaky := true }).qualifies 4 (reads 80 0)
      ∧ (house (hooked .termRing ⟨.qualify, 4, 0, 0, 0⟩)).qualifies 4 (reads 80 0)
      ∧ ((house { inCall .alarmRing with play := some ringingPlay }).line 4).call = .alarmRing
      ∧ ((house { inCall .calibrating with run := some (runIn .ring), play := some ringingPlay }).line 4).run ≠ none := by
  unfold State.qualifies State.watched State.makes
  decide +kernel

/-- A ring trip is found on a line rung in each of the four states. -/
theorem witness_trips (c : CallState) : (house { inCall c with play := some ringingPlay }).trips 4 (reads 0 200) := by
  cases c <;> exact ⟨by decide +kernel, by decide +kernel, by decide +kernel, by decide +kernel, by decide +kernel,
    ringingPlay, ⟨.bridged, 1⟩, by decide +kernel, by decide +kernel, by decide +kernel, by decide +kernel⟩

/-- OnHookEndsTheCall: the ninetieth break scan, in every call state whose machine is not suspended. -/
theorem witness_OnHookEndsTheCall (c : CallState) (h : c ≠ .disabled ∧ c ≠ .test) :
    (house (hooked c ⟨.brk, 0, 89, 0, 0⟩)).hangsUp 4 (reads 79 0) := by
  unfold State.hangsUp State.watched State.makes
  revert h
  cases c <;> decide +kernel

/-- DigitsTakenByTheCallState: the thirtieth make scan after 1, 10 and 11 pulses; a hit that closes the make count; a
flash after a digit. -/
theorem witness_DigitsTakenByTheCallState :
    (house (hooked .dial ⟨.offhook, 0, 0, 29, 1⟩)).dials 4 (reads 80 0) 1 false
      ∧ (house (hooked .exchWait ⟨.offhook, 0, 0, 29, 10⟩)).dials 4 (reads 80 0) 10 false
      ∧ (house (hooked .exchange ⟨.offhook, 0, 0, 29, 11⟩)).dials 4 (reads 80 0) 11 false
      ∧ (house (hooked .dial ⟨.brk, 0, 2, 27, 3⟩)).dials 4 (reads 80 0) 3 false
      ∧ (house (hooked .dial ⟨.brk, 0, 1, 29, 3⟩)).dials 4 (reads 80 0) 3 false
      ∧ (house (hooked .exchange ⟨.brk, 0, 11, 20, 5⟩)).dials 4 (reads 80 0) 5 true := by
  refine ⟨?_, ?_, ?_, ?_, ?_, ?_⟩ <;> (unfold State.dials State.watched State.makes; decide +kernel)

/-- DigitsTakenByTheCallState: the digits that complete the two revert entries, on a line with its record and no run. -/
theorem witness_revert_actions :
    let reverts := fun (tail : Nat) (a : Action) => (Tab.fill DialEntry.reset).set 0 ⟨true, [], tail, a⟩
    judgeDigits (reverts 1 .revertParty) [8] = .complete .revertParty ∧ (bells.entries.get 2).present = true
      ∧ judgeDigits (reverts 3 .revertSuffix) [0, 0, 2] = .complete .revertSuffix
      ∧ (inCall .dial).run = none ∧ (inCall .dial).record = some (opened .originated) := by decide +kernel

/-- Reverting Calls: a line whose party 3 accepts reverting calls dials it by REVERT_PARTY and gets the revert tone. -/
theorem test_revert_party :
    let plan := (Tab.fill DialEntry.reset).set 0 ⟨true, [], 1, .revertParty⟩
    let x := { hooked .dial ⟨.offhook, 0, 0, 29, 3⟩ with opts := 0b0101, record := some { opened .originated with called := none } }
    let t := after [.digitComplete 4 (reads 80 0)] { house x with dialPlan := plan }
    (t.line 4).call = .revertTone ∧ (t.line 4).record.map (·.called) = some (some 2) := by decide +kernel

/-- Two wired parties: slot 1 on TIP and slot 2 on RING. -/
def wired : PartyTable :=
  ⟨((Tab.fill PartyEntry.reset).set 0 ⟨true, .tip, 0, 0, true⟩).set 1 ⟨true, .ring, 0, 0, true⟩, 0, none⟩

/-- A line in REVERT_CHECK at the third scan of its party test: the caller in slot 1, the called party in slot 2, and so
many early lifts before. -/
def lifted (early : Nat) : Line :=
  { inCall .revertCheck with
    active := wired, test := ⟨true, 2, 120, 20⟩, manner := some .trip
    record := some { opened .revert with caller := some 0, called := some 1, early := early } }

/-- PartyTestResultIsTaken: the first and second scan; the third at and below the threshold, in IDENT and in REVERT_CHECK;
an early lift of a known caller after 0, 1 and 2 others, and a lift that is none. -/
theorem witness_PartyTestResultIsTaken :
    (house { inCall .ident with test := ⟨true, 0, 0, 0⟩ }).line 4 = { inCall .ident with test := ⟨true, 0, 0, 0⟩ }
      ∧ (house { inCall .ident with test := ⟨true, 1, 60, 60⟩ }).line 4 = { inCall .ident with test := ⟨true, 1, 60, 60⟩ }
      ∧ (house { inCall .ident with test := ⟨true, 2, 120, 120⟩ }).endsTest 4 ⟨true, 0, 0, 0, 60, 59⟩ 60 59
      ∧ (house { inCall .revertCheck with test := ⟨true, 2, 120, 120⟩ }).endsTest 4 ⟨true, 0, 0, 0, 60, 59⟩ 60 59
      ∧ (opened .originated).called = some 2
      ∧ (∀ n ∈ [0, 1, 2], (house (lifted n)).endsTest 4 ⟨true, 0, 0, 0, 60, 0⟩ 60 6
          ∧ (lifted n).testResult 180 20 60 = .tip ∧ ((lifted n).active.entries.get 0).side = .tip
          ∧ ((lifted n).active.entries.get 1).side ≠ .tip ∧ (lifted n).run = none)
      ∧ (house (lifted 0)).endsTest 4 ⟨true, 0, 0, 0, 0, 200⟩ 40 73 ∧ (lifted 0).testResult 120 220 60 = .ring := by
  unfold State.endsTest
  decide +kernel

/-- Reverting Calls: the first and the third early lift of the caller, and the called party's answer. -/
theorem test_early_lifts :
    let lift := fun n tip ring => ((after [.partyTestResult 4 ⟨true, 0, 0, 0, tip, ring⟩] (house (lifted n))).line 4).call
    lift 0 60 0 = .revertTone ∧ lift 1 60 0 = .revertTone ∧ lift 2 60 0 = .reorder ∧ lift 2 0 200 = .revertTalk := by
  decide +kernel

/-- TrackingWindowMovesTheBaseline: the ninety-ninth and the hundredth tracking scan. -/
theorem witness_TrackingWindowMovesTheBaseline :
    let s := house { home with track := ⟨98, 0⟩ }
    let t := house { home with track := ⟨99, 0⟩ }
    s.watched 4 (reads 79 0) ∧ ¬s.makes 4 (reads 79 0) ∧ (s.line 4).track.count < 99
      ∧ t.watched 4 (reads 0 0) ∧ ¬t.makes 4 (reads 0 0) ∧ (t.line 4).track.count = 99 ∧ (t.line 4).hook.state = .onhook := by
  unfold State.watched State.makes
  decide +kernel

/-- R56: a line that leaves IDLE between two scans, to be rung or calibrated, and comes back at once begins its tracking window
afresh; one that stays in IDLE goes on with it. -/
theorem test_leaving_idle_ends_the_window :
    let s := house { home with track := ⟨98, 0⟩ }
    let track := fun (is : List Instr) => ((after (is ++ [.scan 4 (reads 0 0)]) s).line 4).track
    track [] = ⟨99, 0⟩ ∧ track [.ringParty 7 [0, 4, 3, 0, 0], .ringCancel 7 [4]] = ⟨1, 0⟩
      ∧ track [.calibrate 7 [4, 0, 1, 0, 0, 0, 0, 0, 0, 0], .calibrateCancel 7 [4]] = ⟨1, 0⟩
      ∧ track [.lineOptions 7 [0, 16, 2, 1], .lineOptions 7 [0, 16, 1, 1]] = ⟨1, 0⟩
      ∧ track [.lineRelease 7 [4]] = ⟨99, 0⟩ := by decide +kernel

/-- TrackingWindowMovesTheBaseline: each kind of scan that discards the window: of a line not fitted, without its circuit,
in TEST, in a party test, under ringing, a make scan, a break but for its ninetieth scan, and in another call state. -/
theorem witness_discards :
    State.reset.discards 4 (reads 0 0) ∧ (house home).discards 4 { reads 0 0 with present := false }
      ∧ (house { home with call := .test }).discards 4 (reads 0 0)
      ∧ (house { inCall .ident with test := ⟨true, 0, 0, 0⟩ }).discards 4 (reads 0 0)
      ∧ (house { home with play := some ringingPlay }).discards 4 (reads 0 0)
      ∧ (house home).discards 4 (reads 80 0) ∧ ¬(house home).discards 4 (reads 79 0)
      ∧ (house (hooked .idle ⟨.brk, 0, 88, 0, 0⟩)).discards 4 (reads 0 0)
      ∧ ¬(house (hooked .idle ⟨.brk, 0, 89, 0, 0⟩)).discards 4 (reads 0 0)
      ∧ (house { home with call := .termRing }).discards 4 (reads 0 0) := by
  refine ⟨?_, ?_, ?_, ?_, ?_, ?_, ?_, ?_, ?_, ?_⟩ <;>
    (unfold State.discards State.watched State.makes; decide +kernel)

/-- RingingScanIsMaskedThenJudged: masked, met twice, and failed. -/
theorem witness_RingingScanIsMaskedThenJudged :
    (house { inCall .termRing with play := some { ringingPlay with inrush := 4, trip := 0 } }).line 4
        = { inCall .termRing with play := some { ringingPlay with inrush := 4, trip := 0 } }
      ∧ (house { inCall .termRing with play := some { ringingPlay with trip := 1 } }).line 4
        = { inCall .termRing with play := some { ringingPlay with trip := 1 } }
      ∧ home.baseline + home.tripThreshold ≤ (reads 0 200).dc ∧ ¬home.baseline + home.tripThreshold ≤ (reads 0 199).dc
      ∧ (inCall .termRing).run = none := by decide +kernel

/-- LeakPhaseEndsInWait: the first and the ninety-ninth LEAK scan; the hundredth at, and below, the leak limit of 50, with
window capacities of 6 against request loads of 20 (the assumed one) and 6. -/
theorem witness_LeakPhaseEndsInWait :
    let x : Line := { home with call := .calibrating, run := some (runIn .leak) }
    (house x).watched 4 (reads 50 0) ∧ ¬(house x).qualifies 4 (reads 50 0) ∧ (runIn .leak).leakScans = 99
      ∧ (runIn .leak).mask.getLsbD 0 = true ∧ (4950 + 50) / 100 = 50 ∧ (4949 + 50) / 100 < 50
      ∧ ((house x).line 4).hook.state = .onhook
      ∧ (∀ n ∈ [0, 98], { runIn .leak with leakScans := n }.leakScans < 99)
      ∧ (house x).requestLoad 4 0 = 20 ∧ (lit.arb.caps.get 0).get 0 = 6
      ∧ (house { x with loads := (Tab.fill 0).set 0 6 }).requestLoad 4 0 = 6 := by
  unfold State.qualifies State.watched State.makes
  decide +kernel

/-- A state after `n` counted scans, line 4 scanned in the present period, with a step event due or not. -/
def scannedOn (n : Nat) (due : Bool) : State :=
  { State.reset with timebase := { Timebase.reset with scanCount := n, scanned := 16, stepDue := due } }

/-- TimebaseFollowsItsTable: scans that open a period as the first of all, the ninth and the tenth, one that does not, and
one before which a step event is owed. Every scan of the small states of these tests is in its time. -/
theorem witness_scan_counts :
    State.reset.paced 4 ∧ (∀ l, lit.paced l) ∧ State.reset.timebase.scanned = 0 ∧ (scannedOn 8 false).paced 4 ∧ (scannedOn 9 false).paced 4
      ∧ (scannedOn 9 false).timebase.scanned.getLsbD 4 = true ∧ (scannedOn 9 true).paced 5
      ∧ (scannedOn 9 true).timebase.scanned.getLsbD 5 = false ∧ ¬(scannedOn 9 true).paced 4
      ∧ (scannedOn 9 true).timebase.stepDue = true ∧ State.reset.timebase.stepDue = false := by decide +kernel

/-- TimebaseFollowsItsTable: a window that closes unmet, in LOCKED and in HOLDOVER. -/
theorem witness_TimebaseFollowsItsTable (f : Follower) :
    let s := { State.reset with
      timebase := { Timebase.reset with role := .follower, follower := some f, windowOpen := true, stepDue := true } }
    s.timebase.stepDue = true ∧ s.timebase.role = .follower ∧ s.timebase.follower = some f ∧ s.timebase.position = 0
      ∧ s.timebase.windowOpen = true ∧ s.timebase.latch = false := by
  cases f <;> decide +kernel

/-- StepEventTakesEveryWorkOnce: a step event due with nothing held from before, and with works and a boundary held. -/
theorem witness_StepEventTakesEveryWorkOnce :
    let s := { rung with timebase := (scannedOn 9 true).timebase }
    let t := { s with due := [.callTimer 4], boundary := some Boundary.fresh }
    s.timebase.stepDue = true ∧ s.due = [] ∧ s.boundary = none
      ∧ t.timebase.stepDue = true ∧ t.due ≠ [] ∧ t.boundary ≠ none := by decide +kernel

/-- StepEventTakesEveryWorkOnce: the sender names works twice, works that are none, and the ring engine's to be held, which is
not. -/
theorem test_order_of_works :
    orderWorks [.ring 4, .arbiter, .callTimer 4, .ring 4] [.callTimer 4, .pendingAlarm 5, .ring 3, .ring 4]
        = [.ring 4, .callTimer 4, .pendingAlarm 5, .ring 3]
      ∧ (after [.stepEvent [] [.ring 4, .callTimer 4]] { rung with timebase := (scannedOn 9 true).timebase }).due
        = [.callTimer 4] := by decide +kernel

/-- A call timer held from the step event before is counted at the start of the next, which counts it again. -/
theorem test_held_from_before :
    let s := { house { inCall .dial with timer := some 9 } with timebase := (scannedOn 9 true).timebase, due := [.callTimer 4] }
    ((after [.stepEvent [] []] s).line 4).timer = some 7
      ∧ ((after [.stepEvent [] [.callTimer 4]] s).line 4).timer = some 8
      ∧ (after [.stepEvent [] [.callTimer 4]] s).due = [.callTimer 4] := by decide +kernel

/-- CallTimerExpiresByState: a count of 2, and a held count of 1 in every timed state. -/
theorem witness_CallTimerExpiresByState (c : CallState) :
    let s := { house { inCall c with timer := some 1 } with due := [.callTimer 4] }
    Work.callTimer 4 ∈ s.due ∧ (s.line 4).timer = some 1 ∧ (s.line 4).call = c
      ∧ ((house { inCall c with timer := some 2 }).line 4).timer = some 2 := by
  cases c <;> decide +kernel

/-- HeldWorksTakenByTheirCommands: counts that do not end, the lowest and the highest; works with nothing to do. -/
theorem witness_counts_that_do_not_end :
    (∀ n ∈ [2, 255], ((house { inCall .alarmRing with alarmCount := n }).line 4).call = .alarmRing ∧ 2 ≤ n)
      ∧ (∀ n ∈ [0, 8], { runIn .wait with waitCount := n }.phase = .wait ∧ n < 9)
      ∧ ((house home).line 4).call ≠ .alarmRing ∧ ((house home).line 4).run = none ∧ (runIn .leak).phase ≠ .wait
      ∧ ((house home).line 4).alarmPending = none ∧ ((house (inCall .dial)).line 4).call ≠ .idle
      ∧ ((house home).line 4).commitPending = false := by decide +kernel

/-- HeldWorksTakenByTheirCommands: each held work with what it needs. -/
theorem witness_HeldWorksTakenByTheirCommands :
    let s := { house { home with alarmPending := some 1 } with due := [.pendingAlarm 4] }
    let t := { house { inCall .alarmRing with alarmCount := 1 } with due := [.alarmCount 4] }
    let u := { house { home with commitPending := true, call := .lockout } with due := [.activation 4] }
    let v := { house { home with call := .calibrating, run := some (runIn .wait) } with due := [.calWait 4] }
    (Work.pendingAlarm 4 ∈ s.due ∧ (s.line 4).call = .idle ∧ (s.line 4).alarmPending = some 1)
      ∧ (Work.alarmCount 4 ∈ t.due ∧ (t.line 4).call = .alarmRing ∧ (t.line 4).alarmCount = 1)
      ∧ (Work.activation 4 ∈ u.due ∧ (u.line 4).commitPending = true ∧ (u.line 4).call = .lockout)
      ∧ (Work.calWait 4 ∈ v.due ∧ (v.line 4).run = some (runIn .wait) ∧ (runIn .wait).phase = .wait
        ∧ (runIn .wait).waitCount = 9) := by decide +kernel

/-- The arbiter's laws hold with an entry placed, and with one waiting. -/
theorem witness_arbiterLaw : rung.arbiterLaw ∧ waiting.arbiterLaw := by
  constructor <;> constructor <;> decide +kernel

/-- The profile's law holds with an entry placed. -/
theorem witness_profileLaw : rung.profileLaw := by
  unfold State.profileLaw
  decide +kernel

/-- An entry placed, and a lower capacity at the boundary that follows. -/
def squeezed : State := boundaryAt .eviction { rung with arb := { rung.arb with caps := Tab.fill (Tab.fill 2) } }

/-- EvictionLeavesNoOverload: a lower capacity under a placed entry. -/
theorem witness_EvictionLeavesNoOverload :
    squeezed.boundary = some ⟨.eviction, [4], false⟩ ∧ squeezed.evicted ≠ [] ∧ squeezed.placed 4 = true
      ∧ squeezed.placed 5 = false ∧ squeezed.arbiterLaw ∧ squeezed.profileLaw := by
  refine ⟨by decide +kernel, by decide +kernel, by decide +kernel, by decide +kernel, ?_, ?_⟩
  · constructor <;> decide +kernel
  · unfold State.profileLaw
    decide +kernel

/-- An entry of a class on line `l` placed at offset 0 on channel 1, pattern 0, with a load. -/
def placedOn1 (cls : EntryClass) (l : LineNo) (load : Nat) (s : State) : State :=
  let e : Entry := ⟨cls, .terminating, ⟨.bridged, 1, 0, load⟩, none, .waiting, 0, false⟩
  (s.setRow l (some e)).placeEntry l e 0

/-- Ringing Supply Arbitration, the eviction order: of an ALARM entry of load 3 and ORDINARY ones of 2, 1 and 2, placed in
that order, a capacity of 5 costs the newest ORDINARY one and, with it gone, one more. -/
theorem test_eviction_order :
    let s := placedOn1 .ordinary 7 2 (placedOn1 .ordinary 6 1 (placedOn1 .ordinary 5 2 (placedOn1 .alarm 4 3 lit)))
    let cut := fun n => (boundaryAt .eviction { s with arb := { s.arb with caps := Tab.fill (Tab.fill n) } }).evicted
    cut 8 = [] ∧ cut 7 = [7] ∧ cut 5 = [6, 7] ∧ cut 4 = [5, 6, 7] ∧ cut 2 = [4, 5, 6, 7] := by decide +kernel

/-- QueueWalkStopsAtTheFirstThatDoesNotFit: a boundary whose walk comes next, with the supply ON and an entry waiting. -/
theorem witness_QueueWalk :
    (boundaryAt .queueWalk waiting).boundary = some ⟨.queueWalk, [4], false⟩
      ∧ (boundaryAt .queueWalk waiting).arb.supply = .on ∧ (boundaryAt .queueWalk waiting).arbiterLaw := by
  refine ⟨by decide +kernel, by decide +kernel, ?_⟩
  constructor <;> decide +kernel

/-- The part with entries waiting on lines 4 (load 2), 5 (on channel 3, which is faulted), 6 (load 2), 7 (load 7) and 8
(load 1), in that order. -/
def crowd : State :=
  let put := fun (s : State) (l : LineNo) (c : Channel) (load : Nat) =>
    (s.setRow l (some ⟨.ordinary, .terminating, ⟨.bridged, c, 0, load⟩, none, .waiting, 4, true⟩)).joinWaiting l
  boundaryAt .queueWalk
    (put (put (put (put (put { lit with arb := { lit.arb with faults := 0b1000 } } 4 1 2) 5 3 1) 6 1 2) 7 1 7) 8 1 1)

/-- The walk places 4 and 6, passes 5 over, stops at 7, and so leaves 8; the placed line 4 no longer counts as one that
stood in the queue, and is reported RESUMED. -/
theorem test_queue_walk :
    let t := after [.queueWalk] crowd
    crowd.arb.waitQueue = [4, 5, 6, 7, 8] ∧ t.arb.waitQueue = [5, 7, 8] ∧ t.arb.placedOrder = [4, 6]
      ∧ (t.row 4).map (·.state) = some (.placed 0) ∧ (t.row 6).map (·.state) = some (.placed 0)
      ∧ t.boundary.map (·.stood) = some []
      ∧ ((t.link.slots.get 4).get 6).map (·.take 8) = some [4, 2, 0, 0xFF, 0, 0, 0, 0] := by decide +kernel

/-- R134: a line placed by the walk and suspended by a fault before the held wait counting is not counted. -/
theorem test_suspended_after_the_walk :
    let t := after [.queueWalk, .faultAssertion 1] { crowd with arb := { crowd.arb with waitThreshold := 1 } }
    t.arb.waitQueue = [4, 6, 5, 7, 8] ∧ t.runBoundary.row 4 = t.row 4 := by decide +kernel

/-- BoundaryCounts: each part with what it needs. -/
theorem witness_boundary :
    (boundaryAt .queueWalk waiting).arb.supply = .on ∧ (boundaryAt .queueWalk waiting).arb.waitQueue = [4]
      ∧ (boundaryAt .warmUp { waiting with arb := { waiting.arb with supply := .warming } }).arb.warmUpCount ≤ 1
      ∧ (waiting.row 4).map (·.delayed) = some false ∧ (∀ l, lit.row l = none) ∧ lit.arb.supply = .on
      ∧ ({ lit with arb := { lit.arb with standbyCount := 1, waitThreshold := 1 } }).arb.standbyCount = 1 := by
  decide +kernel

/-- The lit part with the arbiter's counts. -/
def counting (supply : Supply) (warm standby : Nat) : State :=
  { lit with arb := { lit.arb with supply := supply, warmUpCount := warm, standbyCount := standby } }

/-- BoundaryCounts: counts of 2 that do not end, a standby count held by an entry and by a supply just ON; waits at 254 and
255; parts before and after a named one. -/
theorem witness_BoundaryCounts :
    (∀ st, (boundaryAt st lit).boundary = some ⟨st, [4], false⟩)
      ∧ (boundaryAt .eviction waiting).arbiterLaw ∧ (boundaryAt .eviction waiting).evicted = []
      ∧ (counting .warming 2 0).arb.warmUpCount = 2 ∧ (counting .on 0 2).arb.standbyCount = 2
      ∧ (∀ l, (counting .on 0 2).row l = none) ∧ rung.row 4 ≠ none
      ∧ (∀ n ∈ [254, 255], min 255 (n + 1) = 255) ∧ Stage.eviction.rank < Stage.queueWalk.rank := by
  refine ⟨fun st => rfl, ?_, by decide +kernel⟩
  constructor <;> decide +kernel

/-- R132, R140, R141: a warm-up of 2 takes two boundaries, and the standby count falls from the third; QUEUE_WALK takes the
eviction and the warm-up before it. -/
theorem test_boundary_counts :
    let s := counting .warming 2 9
    let one := s.doWork .arbiter
    let two := one.doWork .arbiter
    let three := two.doWork .arbiter
    let show' := fun (u : State) => (u.arb.supply, u.arb.warmUpCount, u.arb.standbyCount)
    show' one = (.warming, 1, 9) ∧ show' two = (.on, 0, 20) ∧ show' three = (.on, 0, 19)
      ∧ show' (after [.queueWalk] { one with boundary := some Boundary.fresh }) = (.on, 0, 20)
      ∧ (after [.queueWalk] { one with boundary := some Boundary.fresh }).boundary = some ⟨.waitCounting, [], true⟩
      ∧ (rung.doWork .arbiter).arb.standbyCount = rung.arb.standbyCount := by decide +kernel

/-- R131, R135, R144: of entries placed on lines 7, 5 and 6 behind one waiting on 8, a fault suspends all three, the
ALARM one on 5 to the front and the others, oldest placed first, ahead of 8, and reports each at its place. -/
theorem test_fault_order :
    let s := placedOn1 .ordinary 6 1 (placedOn1 .alarm 5 2 (placedOn1 .ordinary 7 2 lit))
    let e : Entry := ⟨.ordinary, .terminating, ⟨.bridged, 1, 0, 6⟩, none, .waiting, 0, false⟩
    let t := after [.faultAssertion 1] ((s.setRow 8 (some e)).joinWaiting 8)
    let report := fun (l : LineNo) => ((t.link.slots.get (State.lineEntry l)).get 6).map (·.take 8)
    t.arb.waitQueue = [5, 7, 6, 8] ∧ t.arb.placedOrder = [] ∧ report 5 = some [5, 0, 2, 1, 0, 2, 0, 1]
      ∧ report 7 = some [7, 0, 2, 1, 0, 2, 0, 2] ∧ report 6 = some [6, 0, 2, 1, 0, 2, 0, 3] ∧ report 8 = none := by
  decide +kernel

/-- FaultInputsSuspendTheirChannel: before and after the first sample, a clear and an asserted channel. -/
theorem witness_FaultInputsSuspendTheirChannel :
    State.reset.arb.faultSampled = false ∧ rung.arb.faultSampled = true ∧ rung.arb.faults.getLsbD 1 = false
      ∧ ({ lit.arb with faults := 0b1000 } : Arbiter).faults.getLsbD 3 = true
      ∧ (rung.row 4).map (·.uses 1) = some true := by decide +kernel

/-- AdmissionTakesTheFirstFittingOffset and RequestsAreAdmittedOrQueued: an entry that fits and one that does not, for a
line without an entry. -/
theorem witness_requests :
    let e := fun load => (⟨.ordinary, .terminating, ⟨.tip, 1, 0, load⟩, none, .waiting, 0, false⟩ : Entry)
    rung.row 5 = none ∧ rung.search (e 3) = some 0 ∧ rung.search (e 4) = some 10 ∧ rung.search (e 7) = none
      ∧ 0 < (e 3).voiceA.load := by decide +kernel

/-- RingEngineStepsPlacedLines: an entry of each kind of step, and lines with and without a drive of the ring engine. -/
theorem witness_RingEngineStepsPlacedLines :
    (rung.row 4).map (·.state) = some (.placed 0) ∧ rung.patternOn 0 0 = true ∧ rung.patternOn 0 10 = false
      ∧ (rung.line 4).play = none ∧ { home with play := some ringingPlay }.drive = .ring .bridged 1
      ∧ { home with play := some { ringingPlay with drive := none } }.drive = .feed .none := by decide +kernel

/-- DialPlanJudgesTheDigits: a completing, a continuing and no entry; a line in DIAL with its record. -/
theorem witness_DialPlanJudgesTheDigits :
    let plan := (Tab.fill DialEntry.reset).set 11 ⟨true, [1], 1, .exchange⟩
    judgeDigits plan [1, 0] = .complete .exchange ∧ judgeDigits plan [1] = .collect ∧ judgeDigits plan [2] = .unmatched
      ∧ ((house (inCall .dial)).line 4).record = some (opened .originated) := by decide +kernel

/-- CalibrationResultsWrittenTogether: a run at its last channel, and one with a channel to come. -/
theorem witness_CalibrationResultsWrittenTogether :
    let s := house { home with call := .calibrating, run := some (runIn .ring) }
    (s.line 4).run = some (runIn .ring) ∧ (runIn .ring).leakAvg = some 47 ∧ 1 ≤ s.arb.unitCurrent
      ∧ (runIn .ring).mask.getLsbD 2 = true ∧ (runIn .ring).meas.get 2 = none ∧ (runIn .ring).meas.get 0 ≠ none
      ∧ (runIn .ring).meas.get 1 = none
      ∧ ({ runIn .ring with channel := 0, meas := Tab.fill none } : Run).nextChannel = some 2 := by decide +kernel

/-- R58, R172: a run that ends DONE with the baseline 47 sets LEAKY above the leak limit, clears it at 5 below, and keeps it
in between. -/
theorem test_leaky_after_calibration :
    let run := { runIn .ring with bounds := none }
    let ended := fun (limit : Nat) (leaky : Bool) =>
      (house { home with call := .calibrating, leakLimit := limit, leaky := leaky, run := some run }).burstEnd 4 80 0 47
    let report := fun (t : State) => (t.link.slots.get 4).get 8
    let seen := fun (t : State) => ((t.line 4).leaky, report t)
    seen (ended 46 false) = (true, some [4, 2, 1, 1]) ∧ seen (ended 46 true) = (true, none)
      ∧ seen (ended 47 false) = (false, none) ∧ seen (ended 51 true) = (true, none)
      ∧ seen (ended 52 true) = (false, some [4, 3, 1, 0]) := by decide +kernel

/-- R164 to R167: the hundredth LEAK scan asks for channel 0, its burst for channel 2, and an empty burst fails the run. -/
theorem test_calibration_phases :
    let x : Line := { home with call := .calibrating, run := some { runIn .leak with meas := Tab.fill none }, loads := Tab.fill 6 }
    let s := after [.leakComplete 4 (reads 40 0)] (house x)
    let t := s.burstEnd 4 80 252 66
    let phase := fun (u : State) => ((u.line 4).run.map fun r => (r.phase, r.channel, r.reqLoad))
    phase s = some (.ring, 0, 6) ∧ phase t = some (.ring, 2, 6) ∧ phase (t.burstEnd 4 0 0 0) = none
      ∧ ((t.burstEnd 4 0 0 0).line 4).calCause = some .supply
      ∧ (((t.burstEnd 4 0 0 0).link.slots.get 4).get 7).map (·.take 11)
          = some [4, 3, 2, 0, 2, 2, 0x15, 0, 252, 0, 66] := by decide +kernel

/-- LockedLinesAreFrozen and the laws: a locked line with a command in front that is no hard reset. -/
theorem witness_LockedLinesAreFrozen :
    ((house { home with lock := true }).line 4).lock = true ∧ (house { home with lock := true }).lockLaw
      ∧ (∀ straps rest, [Instr.fsyncPulse] ≠ .hardReset straps :: rest) := by
  refine ⟨by decide +kernel, ?_, fun _ _ h => ?_⟩
  · unfold State.lockLaw
    decide +kernel
  · simp at h

/-- The kept laws: a step from a state in which they hold, with a command in front. -/
theorem witness_step_from_reset : ∃ t, step (State.reset.withPending [.fsyncPulse]) = .next t := ⟨_, rfl⟩

end Sys2Proof.Tests
end

section
/-! Lines taken one by one (R182), what it says that a payload passes its checks (R194), and what the checks of a commit
find in a party table (R15). -/

namespace Sys2Proof.Machine

/-! ### Lines taken one by one -/

/-- What the work of each line of a set relates, the works of all of them relate (R182). -/
theorem forLines_relates {f : LineNo → State → State × Status} {R : State → State → Prop} (refl : ∀ s, R s s)
    (trans : ∀ {s t u}, R s t → R t u → R s u) (h : ∀ l u, R u (f l u).1) (ls : List LineNo) (s : State) :
    R s (forLines f ls s).1 := by
  induction ls generalizing s with
  | nil => exact refl s
  | cons l ls ih => exact trans (h l s) (ih _)

/-! ### Checks of a payload -/

/-- A payload passes when every check of it does (R194). -/
theorem firstFailing_eq_none_iff (cs : List Check) : firstFailing cs = none ↔ ∀ c ∈ cs, c.1 = true := by
  simp [firstFailing, List.find?_eq_none]

theorem byteIn_passes_iff (p : List Byte) (lo hi i : Nat) :
    (byteIn p lo hi i).1 = true ↔ lo ≤ byteAt p i ∧ byteAt p i ≤ hi := by
  simp [byteIn, within]

/-! ### Ring identities and references of a table -/

namespace PartyTable

variable (t : PartyTable)

/-- Two slots are present and have the same side, channel and pattern (R10). -/
theorem sameIdentity_iff (i j : Slot) : t.sameIdentity i j = true ↔
    (t.entries.get i).present = true ∧ (t.entries.get j).present = true
      ∧ (t.entries.get i).side = (t.entries.get j).side ∧ (t.entries.get i).channel = (t.entries.get j).channel
      ∧ (t.entries.get i).pattern = (t.entries.get j).pattern := by
  unfold sameIdentity presentEntry
  cases (t.entries.get i).present <;> cases (t.entries.get j).present <;> simp [and_assoc]

theorem twin_isSome_iff (i : Slot) : (t.twin i).isSome = true ↔ ∃ j, j ≠ i ∧ t.sameIdentity i j = true := by
  rw [← not_iff_not, Bool.not_eq_true, Option.isSome_eq_false_iff, Option.isNone_iff_eq_none, twin, find_slot_none]
  simp

/-- No commit is refused AMBIGUOUS exactly when no two slots share a ring identity (R15). -/
theorem ambiguous_eq_none_iff : t.ambiguous = none ↔ ∀ i j, i ≠ j → t.sameIdentity i j = false := by
  have noTwin : (slots.find? fun i => (t.twin i).isSome) = none ↔ ∀ i j, i ≠ j → t.sameIdentity i j = false := by
    rw [find_slot_none]
    refine forall_congr' fun i => ?_
    rw [← Bool.not_eq_true, twin_isSome_iff]
    simp only [not_exists, not_and, Bool.not_eq_true]
    exact forall_congr' fun j => ⟨fun h e => h e.symm, fun h e => h e.symm⟩
  rw [← noTwin]
  unfold ambiguous
  split
  · next h => simp [h]
  · next i h =>
    have found : (t.twin i).isSome = true := List.find?_some (p := fun i => (t.twin i).isSome) h
    simpa [h, Option.isSome_iff_ne_none] using found

/-- A table references the patterns of its present parties and its alarm pattern (R10). -/
theorem references_iff (p : PatternNo) : t.references p = true ↔
    (∃ i, (t.entries.get i).present = true ∧ (t.entries.get i).pattern = p) ∨ t.alarmPattern = some p := by
  simp [references]

end PartyTable

theorem State.undefinedReference_eq_none_iff (s : State) (t : PartyTable) :
    s.undefinedReference t = none ↔ ∀ p, t.references p = true → s.cadence.get p ≠ none := by
  rw [undefinedReference, find_pattern_none]
  refine forall_congr' fun p => ?_
  cases t.references p <;> simp [defined, Option.isSome_iff_ne_none]

/-- The checks of a commit find nothing exactly in a table fit to be active (R15). -/
theorem State.tableLawful_iff (s : State) (t : PartyTable) :
    s.tableLawful t ↔ t.ambiguous = none ∧ s.undefinedReference t = none := by
  have same : (∀ i j, i ≠ j → t.sameIdentity i j = false) ↔ ∀ i j, i ≠ j → (t.entries.get i).present = true →
      (t.entries.get j).present = true → ((t.entries.get i).side, (t.entries.get i).channel, (t.entries.get i).pattern)
        ≠ ((t.entries.get j).side, (t.entries.get j).channel, (t.entries.get j).pattern) := by
    refine forall_congr' fun i => forall_congr' fun j => forall_congr' fun _ => ?_
    rw [← Bool.not_eq_true, PartyTable.sameIdentity_iff]
    simp only [ne_eq, Prod.mk.injEq, not_and]
  have refs : (∀ p, t.references p = true → s.cadence.get p ≠ none) ↔
      (∀ i, (t.entries.get i).present = true → s.cadence.get (t.entries.get i).pattern ≠ none)
        ∧ ∀ p, t.alarmPattern = some p → s.cadence.get p ≠ none := by
    simp only [PartyTable.references_iff]
    constructor
    · exact fun h => ⟨fun i hi => h _ (.inl ⟨i, hi, rfl⟩), fun p hp => h p (.inr hp)⟩
    · rintro ⟨h, k⟩ p (⟨i, hi, rfl⟩ | hp)
      · exact h i hi
      · exact k p hp
  rw [PartyTable.ambiguous_eq_none_iff, State.undefinedReference_eq_none_iff, same, refs]
  rfl

/-- A table stays lawful while no pattern that it references is lost. -/
theorem State.tableLawful_of_cadence {s u : State} {t : PartyTable}
    (kept : ∀ p, t.references p = true → s.cadence.get p ≠ none → u.cadence.get p ≠ none) (h : s.tableLawful t) :
    u.tableLawful t := by
  rw [tableLawful_iff, undefinedReference_eq_none_iff] at h ⊢
  exact ⟨h.1, fun p hp => kept p hp (h.2 p hp)⟩

end Sys2Proof.Machine
end

section
/-! What every event does to the plan of the lines (R8, R15), the cadence table (R22 to R24), the numbering (R18) and
ENABLED (R2): `Line.Follows` says it of one line, `Guards` of the state. -/

namespace Sys2Proof.Machine

/-- The line keeps the law of its lock (R8). -/
def Line.lockLawful (x : Line) : Prop := x.lock = true → x.commitPending = false

/-- The line keeps the law of ENABLED (R2). -/
def Line.enabledLawful (x : Line) : Prop := x.enabled = true → x.fitted = true

/-- The line keeps the law of its plan in the cadence table of `s` (R15). -/
def State.planLawful (s : State) (x : Line) : Prop :=
  s.tableLawful x.active ∧ (x.commitPending = true → s.tableLawful x.staged)

/-- The line `y` keeps the laws of its plan where `x` did, and what the lock froze of `x`. -/
structure Line.Follows (s : State) (x y : Line) : Prop where
  lock : x.lockLawful → y.lockLawful
  enabled : x.enabledLawful → y.enabledLawful
  plan : s.planLawful x → s.planLawful y
  frozen : x.lockLawful → x.lock = true → y.frozenPart = x.frozenPart

/-- The event from `s` to `t` keeps each law of the plan, and what the lock froze of each line. -/
structure Guards (s t : State) : Prop where
  lock : s.lockLaw → t.lockLaw
  cadence : s.cadenceLaw → t.cadenceLaw
  numbering : s.numberingLaw → t.numberingLaw
  enabled : s.enabledLaw → t.enabledLaw
  plan : s.planLaw → t.planLaw
  frozen : s.lockLaw → ∀ l, (s.line l).lock = true →
    (t.line l).frozenPart = (s.line l).frozenPart ∧ t.range l = s.range l

/-- A line with the same plan part follows. -/
theorem Line.Follows.of_plan {s : State} {x y : Line} (h : y.plan = x.plan) : Line.Follows s x y := by
  simp only [Line.plan, Prod.mk.injEq] at h
  obtain ⟨_, hfitted, hopts, _, _, hlock, hpending, hstaged, hactive⟩ := h
  refine ⟨?_, ?_, ?_, fun _ _ => ?_⟩
  · simp [lockLawful, hlock, hpending]
  · simp [enabledLawful, Line.enabled, hfitted, hopts]
  · simp [State.planLawful, hactive, hstaged, hpending]
  · simp [frozenPart, hstaged, hactive, hopts, hlock]

theorem Line.Follows.refl (s : State) (x : Line) : Line.Follows s x x := .of_plan rfl

/-- The locked lines of a lawful state stay locked through an event that guards them. -/
theorem Guards.stays_locked {s t : State} (h : Guards s t) (law : s.lockLaw) {l : LineNo}
    (locked : (s.line l).lock = true) : (t.line l).lock = true := by
  have same := (h.frozen law l locked).1
  simp only [Line.frozenPart, Prod.mk.injEq] at same
  rw [same.2.2.2, locked]

/-- The empty edit buffer is lawful (R24). -/
theorem EditBuffer.empty_lawful : EditBuffer.empty.lawful := by simp [lawful, empty, durSum]

theorem Line.runReset_plan (x : Line) : x.runReset.plan = x.plan := by
  unfold runReset
  split <;> rfl

/-- A line follows through a soft reset, which clears its commit-pending alone of its plan (R21). -/
theorem Line.softReset_follows (s : State) (x : Line) : Line.Follows s x x.softReset := by
  have same := x.runReset_plan
  simp only [Line.plan, Prod.mk.injEq] at same
  obtain ⟨_, hfitted, hopts, _, _, hlock, _, hstaged, hactive⟩ := same
  refine ⟨fun _ _ => rfl, ?_, fun law => ⟨?_, fun pending => ?_⟩, fun _ _ => ?_⟩
  · simp [enabledLawful, Line.enabled, softReset, hfitted, hopts]
  · simpa [softReset, hactive] using law.1
  · simp [softReset] at pending
  · simp [frozenPart, softReset, hlock, hopts, hstaged, hactive]

namespace Guards

variable {s t u : State}

theorem refl (s : State) : Guards s s := ⟨id, id, id, id, id, fun _ _ _ => ⟨rfl, rfl⟩⟩

theorem trans (h : Guards s t) (k : Guards t u) : Guards s u where
  lock law := k.lock (h.lock law)
  cadence law := k.cadence (h.cadence law)
  numbering law := k.numbering (h.numbering law)
  enabled law := k.enabled (h.enabled law)
  plan law := k.plan (h.plan law)
  frozen law l locked :=
    have first := h.frozen law l locked
    have second := k.frozen (h.lock law) l (h.stays_locked law locked)
    ⟨second.1.trans first.1, second.2.trans first.2⟩

/-- An event that leaves the tables of the device as they are, and that every line follows. -/
theorem of_lines (hc : t.cadence = s.cadence) (he : s.edit.lawful → t.edit.lawful)
    (hn : t.numbering = s.numbering) (hl : ∀ l, Line.Follows s (s.line l) (t.line l)) : Guards s t where
  lock law l := (hl l).lock (law l)
  cadence law := by
    simp only [State.cadenceLaw, hc]
    exact ⟨law.1, law.2.1, he law.2.2⟩
  numbering law := by simpa only [State.numberingLaw, hn] using law
  enabled law l := (hl l).enabled (law l)
  plan law l := by
    have lawful := (hl l).plan (law l)
    simpa only [State.planLawful, State.tableLawful, hc] using lawful
  frozen law l locked := ⟨(hl l).frozen (law l) locked, by simp only [State.range, hn]⟩

theorem updLine (l : LineNo) (f : Line → Line) (h : Line.Follows s (s.line l) (f (s.line l))) :
    Guards s (s.updLine l f) :=
  of_lines rfl id rfl fun m => by
    rw [State.line_updLine]
    split
    · next e => exact e ▸ h
    · exact .refl s _

/-- An event that changes nothing of the lines' plans and of the device's tables. -/
theorem same (hc : t.cadence = s.cadence) (he : t.edit = s.edit) (hn : t.numbering = s.numbering)
    (hl : t.lines = s.lines) : Guards s t :=
  of_lines hc (fun law => he ▸ law) hn fun l => .of_plan (by simp only [State.line, hl])

theorem of_kept (h : Kept s t) : Guards s t := by
  have given := h.given
  simp only [State.given, Prod.mk.injEq] at given
  obtain ⟨hn, hc, he, _⟩ := given
  exact of_lines hc (fun law => he ▸ law) hn fun l => .of_plan (h.plan l)

theorem foldl {α : Type} (f : State → α → State) (h : ∀ u a, Guards u (f u a)) (as : List α) (s : State) :
    Guards s (as.foldl f s) := by
  induction as generalizing s with
  | nil => exact refl s
  | cons a as ih => exact (h s a).trans (ih (f s a))

theorem forLines (f : LineNo → State → State × Status) (h : ∀ l u, Guards u (f l u).1) (ls : List LineNo) (s : State) :
    Guards s (Machine.forLines f ls s).1 := forLines_relates refl trans h ls s

/-! ### Activation, the present indication, soft reset -/

/-- Activation of a pending commit (R16): a locked line has none (R8). -/
theorem activation (l : LineNo) : Guards s (s.activation l) := by
  unfold State.activation
  split
  · next due =>
    have pending : (s.line l).commitPending = true := (Bool.and_eq_true_iff.mp due).1
    refine (updLine l _ ⟨fun _ _ => rfl, id, fun law => ⟨law.2 pending, by simp⟩, fun law locked => ?_⟩).trans
      (of_kept (Kept.markLine _ _ _))
    simp [law locked] at pending
  · exact refl s

theorem withoutEnabled_frozen (o : BitVec 4) : withoutEnabled o &&& frozenFlags = o &&& frozenFlags := by
  simp [withoutEnabled, BitVec.and_assoc]

/-- The loss of a line circuit clears ENABLED and keeps what the lock freezes (R2, R8). -/
theorem fittedLost (l : LineNo) : Guards s (s.fittedLost l) := by
  unfold State.fittedLost
  refine Guards.trans (updLine l _ ⟨id, fun _ on => ?_, id, fun _ _ => ?_⟩)
    ((of_kept (Kept.markLineFault _ _)).trans (of_kept (Kept.disableLine _)))
  · simp [Line.enabled, withoutEnabled, frozenFlags] at on
  · simp [Line.frozenPart, withoutEnabled_frozen]

/-- The scan of a line that is not fitted sets its fitted flag at most (R2). -/
theorem unfittedScan (l : LineNo) (present : Bool) (h : (s.line l).fitted = false) :
    Guards s (s.unfittedScan l present) := by
  have seen : Guards s (s.updLine l fun x =>
      { x with presentSeen := true, fitted := present, track := Tracking.empty }) :=
    updLine l _ ⟨id, fun law on => by simp [law on] at h, id, fun _ _ => rfl⟩
  unfold State.unfittedScan
  dsimp only
  split
  · exact seen.trans (of_kept (Kept.markLineFault _ _))
  · exact seen

theorem softReset (s : State) : Guards s s.softReset := by
  refine of_lines rfl (fun _ => EditBuffer.empty_lawful) rfl fun l => ?_
  simp only [State.line, State.softReset, Tab.get_build]
  exact Line.softReset_follows s _

end Guards

end Sys2Proof.Machine
end

section
/-! What the call, alarm, test and calibration commands leave alone when they are carried out (R198): all that `Kept`
names, the plan of the lines and the tables of the device among it. -/

namespace Sys2Proof.Machine.Kept

variable {s : State}

/-- The lines of a set, taken one by one. -/
theorem forLines (f : LineNo → State → State × Status) (h : ∀ l u, Kept u (f l u).1) (ls : List LineNo) (s : State) :
    Kept s (Machine.forLines f ls s).1 := forLines_relates refl trans h ls s

theorem ringAccepted (l : LineNo) (i : Slot) (e : PartyEntry) (n : Nat) : Kept s (s.ringAccepted l i e n) :=
  Kept.trans (Kept.trans ((openCall _ _).trans (enter _ _)) (updLine _ _ rfl)) (request _ _)

theorem ringParty (l : LineNo) (i : Slot) (n : Nat) : Kept s (s.ringParty l i n).1 := by
  simp only [State.ringParty, State.refuse, State.refuseAs, State.ok, apply_ite Prod.fst]
  split_ifs
  · exact refl s
  · exact refl s
  · exact refl s
  · exact refl s
  · exact refl s
  · exact ringAccepted _ _ _ _

theorem carryRingParty (p : List Byte) : Kept s (s.carryRingParty p).1 := by
  unfold State.carryRingParty
  split
  · exact refl s
  · exact ringParty _ _ _

theorem carryRingCancel (p : List Byte) : Kept s (s.carryRingCancel p).1 := by
  unfold State.carryRingCancel
  dsimp only
  split
  · exact (removeEntry _).trans (endCall _ _ _)
  · exact refl s

theorem carryConnect (p : List Byte) : Kept s (s.carryConnect p).1 := by
  unfold State.carryConnect
  dsimp only
  split
  · exact Flows.connectLine _
  · exact refl s

theorem carryReject (p : List Byte) : Kept s (s.carryReject p).1 := by
  unfold State.carryReject
  dsimp only
  split
  · exact endCall _ _ _
  · exact refl s

theorem carryDisconnect (p : List Byte) : Kept s (s.carryDisconnect p).1 := by
  unfold State.carryDisconnect
  dsimp only
  split
  · exact endCall _ _ _
  · exact refl s

theorem carryLineRelease (p : List Byte) : Kept s (s.carryLineRelease p).1 := by
  unfold State.carryLineRelease
  dsimp only
  split
  · exact refl s
  · exact Flows.releaseLine _

theorem alarmRingAt (n : Nat) (l : LineNo) (s : State) : Kept s (Machine.alarmRingAt n l s).1 := by
  unfold Machine.alarmRingAt
  split
  · exact refl s
  · split
    · exact refl s
    · split
      · exact startAlarm _ _ _
      · exact updLine l (fun x => { x with alarmPending := some n }) rfl

theorem alarmStopAt (l : LineNo) (s : State) : Kept s (Machine.alarmStopAt l s).1 := by
  have cleared : Kept s (s.updLine l fun x => { x with alarmPending := none }) := updLine _ _ rfl
  unfold Machine.alarmStopAt
  dsimp only
  split
  · exact cleared.trans (endAlarm l)
  · split
    · exact cleared
    · exact refl s

theorem carryTestAccess (p : List Byte) : Kept s (s.carryTestAccess p).1 := by
  unfold State.carryTestAccess
  dsimp only
  split
  · exact Kept.trans (updLine _ _ rfl) (enter _ _)
  · exact refl s

theorem carryTestRelease (p : List Byte) : Kept s (s.carryTestRelease p).1 := by
  unfold State.carryTestRelease
  dsimp only
  split
  · exact Kept.trans (updLine _ _ rfl) (enter _ _)
  · exact refl s

theorem carryCalibrate (p : List Byte) : Kept s (s.carryCalibrate p).1 := by
  unfold State.carryCalibrate
  dsimp only
  split
  · exact refl s
  · split
    · exact Kept.trans (updLine _ _ rfl) (enter _ _)
    · exact refl s

theorem carryCalibrateCancel (p : List Byte) : Kept s (s.carryCalibrateCancel p).1 := by
  unfold State.carryCalibrateCancel
  dsimp only
  split
  · exact failToIdle _ _
  · exact refl s

end Sys2Proof.Machine.Kept
end

section
/-! What the cadence commands write (R24 to R26): the laws of segments, of the edit buffer and of stored patterns. -/

namespace Sys2Proof.Machine

theorem durSum_append (gs hs : List Segment) : durSum (gs ++ hs) = durSum gs + durSum hs := by
  induction gs with
  | nil => simp [durSum]
  | cons g gs ih => simp [durSum, ih, Nat.add_assoc]

/-- A pattern field of a range that begins at 1 names no slot 0 (R24, R28). -/
theorem patternAt_ne_zero {p : List Byte} {i : Nat} (lo : 1 ≤ byteAt p i) (hi : byteAt p i ≤ 31) :
    patternAt p i ≠ 0 := by
  intro h
  have := congrArg Fin.val h
  simp only [patternAt, Fin.ofNat] at this
  omega

/-- The segments of a CADENCE_PUT that has passed its checks are lawful (R25). -/
theorem segmentsOf_lawful (i : Nat) (p : List Byte) (h : ∀ c ∈ segmentChecks i p, c.1 = true) :
    ∀ g ∈ segmentsOf p, g.lawful := by
  induction p using segmentsOf.induct generalizing i with
  | case1 level dur rest ih =>
    simp only [segmentChecks, List.forall_mem_cons] at h
    obtain ⟨_, inRange, others⟩ := h
    simp only [segmentsOf, List.forall_mem_cons]
    exact ⟨by simpa [within, Segment.lawful] using inRange, ih _ others⟩
  | case2 p short =>
    unfold segmentsOf
    split
    · next level dur rest => exact absurd rfl (short level dur rest)
    · simp

/-- The segments that a CADENCE_PUT takes leave the buffer within its bounds (R24, R25). -/
theorem putSegments_lawful (gs held : List Segment) (n : Nat) (new : ∀ g ∈ gs, g.lawful) (len : held.length ≤ 12)
    (sum : durSum held ≤ 60) (old : ∀ g ∈ held, g.lawful) :
    (putSegments gs held n).segs.length ≤ 12 ∧ durSum (putSegments gs held n).segs ≤ 60
      ∧ ∀ g ∈ (putSegments gs held n).segs, g.lawful := by
  induction gs generalizing held n with
  | nil => exact ⟨len, sum, old⟩
  | cons g gs ih =>
    rw [List.forall_mem_cons] at new
    unfold putSegments
    split
    · exact ⟨len, sum, old⟩
    · next room =>
      split
      · exact ⟨len, sum, old⟩
      · next fits =>
        refine ih (held ++ [g]) (n + 1) new.2 ?_ ?_ ?_
        · simp only [List.length_append, List.length_singleton]; omega
        · simp only [durSum_append, durSum]; omega
        · simpa [or_imp, forall_and] using ⟨old, new.1⟩

namespace Guards

variable {s t : State}

/-- An event on the edit buffer alone. -/
theorem edit (b : EditBuffer) (h : s.edit.lawful → b.lawful) : Guards s { s with edit := b } :=
  of_lines rfl h rfl fun _ => .refl s _

/-- An event on the cadence table: the built-in pattern stays, what is stored is lawful, and no pattern is lost that a
line's active table or committed staged table references (R23, R27). -/
theorem cadenceTable (p : PatternNo) (segs : Option (List Segment)) (b : EditBuffer)
    (notBuiltin : s.edit.lawful → p ≠ 0) (stored : ∀ gs, segs = some gs → s.edit.lawful → patternLawful gs)
    (buffer : s.edit.lawful → b.lawful)
    (unused : segs = none → ∀ l, (s.line l).active.references p = false
      ∧ ((s.line l).commitPending = true → (s.line l).staged.references p = false)) :
    Guards s { s with cadence := s.cadence.set p segs, edit := b } where
  lock := id
  numbering := id
  enabled := id
  frozen _ _ _ := ⟨rfl, rfl⟩
  cadence := by
    rintro ⟨patterns, builtin, lawful⟩
    refine ⟨fun q gs hq => ?_, ?_, buffer lawful⟩
    · simp only [Tab.get_set] at hq
      split at hq
      · exact stored gs hq lawful
      · exact patterns q gs hq
    · rw [Tab.get_set_ne _ _ (notBuiltin lawful).symm]
      exact builtin
  plan law l := by
    have kept : ∀ x : PartyTable, (segs = none → x.references p = false) → s.tableLawful x →
        State.tableLawful { s with cadence := s.cadence.set p segs, edit := b } x := by
      refine fun x free => State.tableLawful_of_cadence fun q hq hd => ?_
      simp only [Tab.get_set]
      split
      · next e => exact fun none' => by simp [e, free none'] at hq
      · exact hd
    exact ⟨kept _ (fun e => (unused e l).1) (law l).1,
      fun pending => kept _ (fun e => (unused e l).2 pending) ((law l).2 pending)⟩

theorem carryCadenceOpen (p : List Byte) (h : firstFailing (fieldChecks .cadenceOpen p) = none) :
    Guards s (s.carryCadenceOpen p).1 := by
  simp only [firstFailing_eq_none_iff, fieldChecks, List.forall_mem_singleton, byteIn_passes_iff] at h
  exact edit _ fun _ => by simpa [EditBuffer.lawful, durSum] using patternAt_ne_zero h.1 h.2

theorem carryCadencePut (p : List Byte) (h : firstFailing (fieldChecks .cadencePut p) = none) :
    Guards s (s.carryCadencePut p).1 := by
  rw [firstFailing_eq_none_iff] at h
  unfold State.carryCadencePut
  split
  · exact refl s
  · refine edit _ fun ⟨len, sum, old, bound⟩ => ?_
    obtain ⟨len', sum', all⟩ := putSegments_lawful _ _ 0 (segmentsOf_lawful 0 p h) len sum old
    exact ⟨len', sum', all, bound⟩

theorem carryCadenceStore (p : List Byte) : Guards s (s.carryCadenceStore p).1 := by
  unfold State.carryCadenceStore
  split
  · exact refl s
  · next k hk =>
    split
    · exact refl s
    · next complete =>
      split
      · exact refl s
      · next someOn =>
        split
        · exact refl s
        · refine cadenceTable k _ _ (fun law e => law.2.2.2 (by rw [hk, e])) ?_ (fun _ => EditBuffer.empty_lawful) nofun
          rintro gs ⟨⟩ ⟨len, sum, all, _⟩
          exact ⟨len, by omega, by simpa using someOn, all⟩

theorem carryCadenceClear (p : List Byte) (h : firstFailing (fieldChecks .cadenceClear p) = none) :
    Guards s (s.carryCadenceClear p).1 := by
  simp only [firstFailing_eq_none_iff, fieldChecks, List.forall_mem_singleton, byteIn_passes_iff] at h
  unfold State.carryCadenceClear
  dsimp only
  split
  · exact refl s
  · next free =>
    rw [find_line_none] at free
    refine cadenceTable _ none s.edit (fun _ => patternAt_ne_zero h.1 h.2) nofun id fun _ l => ?_
    have := free l
    simp only [State.lineReferences, Bool.or_eq_false_iff, Bool.and_eq_false_imp] at this
    exact this.1

end Guards

end Sys2Proof.Machine
end

section
/-! What the plan and numbering commands do to the laws of the plan (R4 to R7, R12 to R19). -/

namespace Sys2Proof.Machine

/-! ### The forms of a reply -/

namespace State

variable (s : State)

@[simp] theorem ok_fst (fs : List Byte) : (s.ok fs).1 = s := rfl

@[simp] theorem ok_snd (fs : List Byte) : (s.ok fs).2 = Status.ok.code :: fs := rfl

@[simp] theorem refuse_fst (st : Status) (ds : List Byte) : (s.refuse st ds).1 = s := rfl

@[simp] theorem refuse_snd (st : Status) (ds : List Byte) : (s.refuse st ds).2 = st.code :: ds := rfl

@[simp] theorem refuseAs_fst (st : Status) (l : LineNo) : (s.refuseAs st l).1 = s := rfl

@[simp] theorem refuseAs_snd (st : Status) (l : LineNo) :
    (s.refuseAs st l).2 = [st.code, (s.line l).call.code] := rfl

end State

/-! ### The plan commands -/

/-- An edit of the staged table passes on an unlocked line with no commit pending (R12, R13, R15). -/
theorem Line.editRefusal_eq_none_iff (x : Line) :
    x.editRefusal = none ↔ x.lock = false ∧ x.commitPending = false := by
  unfold editRefusal
  cases x.lock <;> cases x.commitPending <;> simp

/-- The outcome of LINE_OPTIONS is OK only for a set that keeps the frozen flags of a locked line and enables no line
that is not fitted (R4, R8). -/
theorem Line.optionsOutcome_ok {x : Line} {new : BitVec 4} (h : x.optionsOutcome new = .ok) :
    (x.lock = true → new &&& frozenFlags = x.opts &&& frozenFlags) ∧ (new.getLsbD 0 = true → x.fitted = true) := by
  unfold optionsOutcome at h
  split at h
  · contradiction
  · next frozen =>
    split at h
    · contradiction
    · split at h
      · contradiction
      · next fit =>
        exact ⟨fun locked => by simpa [locked] using frozen, fun on => by simpa [on] using fit⟩

/-- An unlocked line with no commit pending follows any edit of its staged table. -/
theorem Line.Follows.staged {s : State} {x : Line} (t : PartyTable) (h : x.editRefusal = none) :
    Line.Follows s x { x with staged := t } := by
  obtain ⟨unlocked, free⟩ := x.editRefusal_eq_none_iff.mp h
  exact ⟨id, id, fun law => ⟨law.1, fun pending => by simp [free] at pending⟩,
    fun _ locked => by simp [unlocked] at locked⟩

namespace Guards

variable {s t : State}

theorem carryPartyWrite (p : List Byte) : Guards s (s.carryPartyWrite p).1 := by
  unfold State.carryPartyWrite
  dsimp only
  split
  · exact refl s
  · next free =>
    rw [State.ok_fst]
    refine updLine (lineAt p 0) _ ?_
    exact .staged _ free

theorem carryAlarmIdentity (p : List Byte) : Guards s (s.carryAlarmIdentity p).1 := by
  unfold State.carryAlarmIdentity
  dsimp only
  split
  · exact refl s
  · next free =>
    rw [State.ok_fst]
    refine updLine (lineAt p 0) _ ?_
    exact .staged _ free

/-- A commit is taken only on an unlocked line whose staged table is lawful (R15). -/
theorem carryPlanCommit (p : List Byte) : Guards s (s.carryPlanCommit p).1 := by
  unfold State.carryPlanCommit
  dsimp only
  split
  · exact refl s
  · next free =>
    obtain ⟨unlocked, _⟩ := (Line.editRefusal_eq_none_iff _).mp free
    split
    · exact refl s
    · next clear =>
      split
      · exact refl s
      · next defined =>
        rw [State.ok_fst]
        refine updLine (lineAt p 0) _ ?_
        exact ⟨fun _ locked => by simp [unlocked] at locked, id,
          fun law => ⟨law.1, fun _ => (State.tableLawful_iff s _).mpr ⟨clear, defined⟩⟩,
          fun _ locked => by simp [unlocked] at locked⟩

theorem carryPlanDiscard (p : List Byte) : Guards s (s.carryPlanDiscard p).1 := by
  unfold State.carryPlanDiscard
  dsimp only
  split
  · exact refl s
  · next unlocked =>
    rw [State.ok_fst]
    refine updLine (lineAt p 0) _ ?_
    exact ⟨fun _ _ => rfl, id, fun law => ⟨law.1, nofun⟩, fun _ locked => absurd locked unlocked⟩

theorem takeOptions (l : LineNo) (new : BitVec 4) (h : (s.line l).optionsOutcome new = .ok) :
    Guards s (s.takeOptions l new) := by
  obtain ⟨frozen, fit⟩ := Line.optionsOutcome_ok h
  have taken : Guards s (s.updLine l fun x => { x with opts := new }) :=
    updLine l _ ⟨id, fun _ => fit, id, fun _ locked => by simp [Line.frozenPart, frozen locked]⟩
  unfold State.takeOptions
  dsimp only
  split
  · exact taken.trans (of_kept (Kept.enableLine l))
  · split
    · exact taken.trans (of_kept (Kept.disableLine l))
    · exact taken

theorem lineOptionsAt (f : WriteForm) (v : BitVec 4) (l : LineNo) (s : State) :
    Guards s (Machine.lineOptionsAt f v l s).1 := by
  unfold Machine.lineOptionsAt
  dsimp only
  split
  · next ok => exact takeOptions l _ ok
  · exact refl s

theorem carryLineLevels (p : List Byte) : Guards s (s.carryLineLevels p).1 := by
  unfold State.carryLineLevels
  dsimp only
  split
  · exact refl s
  · rw [State.ok_fst]
    refine updLine (lineAt p 0) _ ?_
    exact ⟨id, id, id, fun _ _ => rfl⟩

theorem carryLineLoads (p : List Byte) : Guards s (s.carryLineLoads p).1 := by
  unfold State.carryLineLoads
  dsimp only
  split
  · exact refl s
  · rw [State.ok_fst]
    refine updLine (lineAt p 0) _ ?_
    exact .of_plan rfl

theorem lineLockAt (l : LineNo) (s : State) : Guards s (Machine.lineLockAt l s).1 := by
  unfold Machine.lineLockAt
  split
  · exact refl s
  · next free =>
    show Guards s (s.updLine l fun x => { x with lock := true })
    refine updLine l _ ?_
    exact ⟨fun _ _ => by simpa using free, id, id, fun _ locked => by simp [Line.frozenPart, locked]⟩

/-- NUMBERING_SET takes ordered boundaries that move no locked line's range (R19). -/
theorem carryNumberingSet (p : List Byte) : Guards s (s.carryNumberingSet p).1 := by
  unfold State.carryNumberingSet
  dsimp only
  split
  · exact refl s
  · next inOrder =>
    split
    · exact refl s
    · next still =>
      refine ⟨id, id, fun _ => (by simpa using inOrder : ordered (boundariesAt p) = true), id, id, fun _ l locked => ⟨rfl, ?_⟩⟩
      have stays : ∀ m, (s.line m).lock = true → lowerOf (boundariesAt p) m = lowerOf s.numbering m
          ∧ (boundariesAt p).get m = s.numbering.get m := by
        simpa [State.movesLocked] using still
      exact Prod.ext (stays l locked).1 (stays l locked).2

/-- Carrying out a command that has passed its checks keeps the laws of the plan, and what the lock froze (R180). -/
theorem carry (c : HostCmd) (p : List Byte) (h : firstFailing (fieldChecks c p) = none) :
    Guards s (s.carry c p).1 := by
  cases c <;> simp only [State.carry]
  case softReset => exact softReset s
  case timebaseSet =>
    unfold State.carryTimebaseSet
    dsimp only
    split
    · exact refl s
    · exact Guards.trans (t := s.updTimebase fun t => t.withRole (Role.ofCode (byteAt p 0))) (same rfl rfl rfl rfl)
        (of_kept Kept.markSync)
  case partyWrite => exact carryPartyWrite p
  case alarmIdentity => exact carryAlarmIdentity p
  case planCommit => exact carryPlanCommit p
  case planDiscard => exact carryPlanDiscard p
  case lineOptions => exact forLines _ (fun l u => lineOptionsAt _ _ l u) _ _
  case lineLevels => exact carryLineLevels p
  case lineLoads => exact carryLineLoads p
  case lineLock => exact forLines _ (fun l u => lineLockAt l u) _ _
  case numberingSet => exact carryNumberingSet p
  case cadenceOpen => exact carryCadenceOpen p h
  case cadencePut => exact carryCadencePut p h
  case cadenceStore => exact carryCadenceStore p
  case cadenceClear => exact carryCadenceClear p h
  case ringParty => exact of_kept (Kept.carryRingParty p)
  case ringCancel => exact of_kept (Kept.carryRingCancel p)
  case connect => exact of_kept (Kept.carryConnect p)
  case reject => exact of_kept (Kept.carryReject p)
  case disconnect => exact of_kept (Kept.carryDisconnect p)
  case lineRelease => exact of_kept (Kept.carryLineRelease p)
  case alarmRing => exact of_kept (Kept.forLines _ (fun l u => Kept.alarmRingAt _ l u) _ _)
  case alarmStop => exact of_kept (Kept.forLines _ (fun l u => Kept.alarmStopAt l u) _ _)
  case testAccess => exact of_kept (Kept.carryTestAccess p)
  case testRelease => exact of_kept (Kept.carryTestRelease p)
  case calibrate => exact of_kept (Kept.carryCalibrate p)
  case calibrateCancel => exact of_kept (Kept.carryCalibrateCancel p)
  case cadenceRead =>
    unfold State.carryCadenceRead
    split <;> exact refl s
  case arbiterRead =>
    unfold State.carryArbiterRead
    split
    · exact refl s
    · split <;> exact refl s
  all_goals exact same rfl rfl rfl rfl

end Guards

end Sys2Proof.Machine
end

section
/-! What the events as wholes do to the laws of the plan: the link's part (R178 to R187), scans (R41), step events
(R31) and the rest of the command table. -/

namespace Sys2Proof.Machine

namespace Guards

variable {s t : State}

/-! ### The link -/

theorem updLink (f : Link → Link) : Guards s (s.updLink f) := same rfl rfl rfl rfl

theorem answerFrame (f : Frame) : Guards s (s.answerFrame f).1 := by
  unfold State.answerFrame State.judge
  split
  · exact refl s
  · dsimp only
    split
    · split
      · exact refl s
      · next passed => exact carry _ _ passed
    · exact refl s

theorem dispatch (n : Nat) (s : State) : Guards s (s.dispatch n) := by
  induction n generalizing s with
  | zero => exact refl s
  | succ n ih =>
    unfold State.dispatch
    split
    · exact refl s
    · split
      · exact ((updLink _).trans (answerFrame _)).trans ((updLink _).trans (ih _))
      · exact refl s

theorem chosen (e : Fin 17) (r : ReportKind) : Guards s (s.chosen e r) := by
  unfold State.chosen
  split
  · split
    · exact of_kept (Kept.updLine _ _ rfl)
    · exact refl s
  · exact updLink _
  all_goals exact refl s

theorem transmit : Guards s s.transmit := by
  unfold State.transmit State.choose
  split
  · exact refl s
  · split
    · exact updLink _
    · split
      · exact refl s
      · exact (updLink _).trans (chosen _ _)

theorem settleLink : Guards s s.settleLink := (dispatch _ _).trans (transmit.trans (dispatch _ _))

theorem linkFault (c : LinkFault) : Guards s (s.linkFault c) := (updLink _).trans (of_kept (Kept.markDevice _ _))

theorem offer (f : Frame) : Guards s (s.offer f) := by
  unfold State.offer
  split
  · exact updLink _
  · exact linkFault _

theorem receive (b : Byte) : Guards s (s.receive b) := by
  refine Guards.trans (t := s.updLink fun k => { k with receiver := (s.link.receiver.take b).1 }) (updLink _) ?_
  unfold State.receive State.takeReceived
  dsimp only
  split
  · exact refl _
  · exact offer _
  · exact linkFault _

theorem gapExpiry : Guards s s.gapExpiry := by
  unfold State.gapExpiry
  split
  · exact (updLink _).trans (linkFault _)
  · exact refl s

/-! ### Step events and scans -/

theorem doWork (w : Work) : Guards s (s.doWork w) := by
  cases w with
  | activation l => exact activation l
  | alarmCount l => exact of_kept (Kept.alarmCountStep l)
  | calWait l => exact of_kept (Kept.calWaitCount l)
  | arbiter => exact of_kept ((Kept.boundary _).trans Kept.runBoundary)
  | callTimer l => exact of_kept (Kept.callTimerStep l)
  | pendingAlarm l => exact of_kept (Kept.pendingAlarmStep l)
  | ring l => exact of_kept (Kept.ringStep l)

theorem hold (w : Work) : Guards s (s.hold w) := by
  cases w <;> exact same rfl rfl rfl rfl

theorem takeDue (w : Work) : Guards s (s.takeDue w) :=
  Guards.trans (t := { s with due := s.due.erase w }) (same rfl rfl rfl rfl) (doWork w)

theorem settleDue : Guards s s.settleDue := by
  refine Guards.trans (t := { s with due := [] }) (same rfl rfl rfl rfl) ?_
  exact (foldl _ (fun _ w => doWork w) s.due _).trans (of_kept Kept.runBoundary)

theorem advanceTimebase : Guards s s.advanceTimebase := by
  have moved : Guards s (s.updTimebase fun t => t.advance.1) := same rfl rfl rfl rfl
  unfold State.advanceTimebase
  dsimp only
  split
  · exact moved
  · exact moved.trans (of_kept Kept.markSync)

theorem takeWorks (first held : List Work) (b : Bool) : Guards s (s.takeWorks first held b) :=
  (foldl _ (fun _ w => hold w) _ _).trans (foldl _ (fun _ w => doWork w) _ _)

theorem stepTime (first held : List Work) : Guards s (s.stepTime first held) :=
  settleDue.trans (advanceTimebase.trans (takeWorks _ _ _))

theorem takeOwed (l : LineNo) : Guards s (s.takeOwed l) := by
  unfold State.takeOwed
  split
  · exact (stepTime _ _).trans settleLink
  · exact refl s

theorem scanLine (l : LineNo) (r : Reading) : Guards s (s.scanLine l r) := by
  refine Guards.trans (t := s.countScan l) (same rfl rfl rfl rfl) ?_
  unfold State.scanLine
  dsimp only
  split
  · split
    · exact of_kept (Kept.fittedScan _ _)
    · exact fittedLost _
  · next unfitted => exact unfittedScan _ _ (by simpa using unfitted)

theorem updArb (f : Arbiter → Arbiter) : Guards s (s.updArb f) := same rfl rfl rfl rfl

theorem assertFault (c : Channel) : Guards s (s.assertFault c) := by
  unfold State.assertFault
  exact (updArb _).trans (of_kept ((Kept.suspendMany _ _).trans (Kept.markSupply _ _)))

theorem releaseFault (c : Channel) : Guards s (s.releaseFault c) := (updArb _).trans (of_kept (Kept.markSupply _ _))

/-! ### Events -/

theorem finish (h : Guards s t) : ∀ u, Machine.finish t = .next u → Guards s u := by
  rintro u ⟨⟩
  exact h.trans settleLink

theorem occurring (b : Bool) (f : State → State) (h : Guards s (f s)) :
    ∀ u, Machine.occurring b f s = .next u → Guards s u := by
  unfold Machine.occurring
  split
  · exact h.finish
  · rintro u ⟨⟩
    exact refl s

theorem hostCommand (c : HostCmd) (tag : Byte) (p : List Byte) :
    ∀ u, Machine.hostCommand c tag p s = .next u → Guards s u := (offer _).finish

theorem execScan (l : LineNo) (r : Reading) : ∀ u, Machine.execScan l r s = .next u → Guards s u :=
  ((takeOwed l).trans (scanLine l r)).finish

theorem scanning (finds : State → Bool) (l : LineNo) (r : Reading) :
    ∀ u, Machine.scanning finds l r s = .next u → Guards s u := by
  unfold Machine.scanning
  split
  · exact execScan l r
  · rintro u ⟨⟩
    exact refl s

end Guards

theorem exec_hardReset (straps : Rate) (s : State) : exec (.hardReset straps) s = .next (s.hardReset straps) := rfl

/-- Every event but a hard reset keeps the laws of the plan and what the lock froze. -/
theorem exec_guards (i : Instr) (s t : State) (soft : ∀ straps, i ≠ .hardReset straps) (h : exec i s = .next t) :
    Guards s t := by
  cases i <;> simp only [exec, execOffHook, execOnHook, execDigitComplete, execPartyTestResult,
    execTrackingWindowClose, execRingTrip, execLeakComplete, execFsyncPulse] at h
  case hardReset straps => exact absurd rfl (soft straps)
  case badKind kind tag p => exact Guards.occurring _ _ (Guards.offer _) t h
  case byteReceived b good => exact Guards.occurring _ _ (Guards.receive b) t h
  case gap => exact Guards.occurring _ _ Guards.gapExpiry t h
  case frameSent => exact Guards.occurring _ _ (Guards.updLink _) t h
  case scan l r => exact Guards.execScan l r t h
  case offHook l r => exact Guards.scanning _ l r t h
  case onHook l r => exact Guards.scanning _ l r t h
  case digitComplete l r => exact Guards.scanning _ l r t h
  case partyTestResult l r => exact Guards.scanning _ l r t h
  case trackingWindowClose l r => exact Guards.scanning _ l r t h
  case ringTrip l r => exact Guards.scanning _ l r t h
  case leakComplete l r => exact Guards.scanning _ l r t h
  case stepEvent first held => exact Guards.occurring _ _ (Guards.stepTime first held) t h
  case followerWindowUnmet first held => exact Guards.occurring _ _ (Guards.stepTime first held) t h
  case fsyncPulse => exact Guards.finish (s := s) (t := s.updTimebase Timebase.pulse) (Guards.same rfl rfl rfl rfl) t h
  case callTimerExpiry l => exact Guards.occurring _ _ (Guards.takeDue _) t h
  case pendingAlarmStart l => exact Guards.occurring _ _ (Guards.takeDue _) t h
  case alarmCountEnd l => exact Guards.occurring _ _ (Guards.takeDue _) t h
  case planActivation l => exact Guards.occurring _ _ (Guards.takeDue _) t h
  case calibrationWaitLimit l => exact Guards.occurring _ _ (Guards.takeDue _) t h
  case eviction => exact Guards.occurring _ _ (Guards.of_kept (Kept.runThrough _)) t h
  case warmUpEnd => exact Guards.occurring _ _ (Guards.of_kept (Kept.runThrough _)) t h
  case queueWalk => exact Guards.occurring _ _ (Guards.of_kept (Kept.runThrough _)) t h
  case ringDelayed l => exact Guards.occurring _ _ (Guards.of_kept (Kept.runThrough _)) t h
  case standbyTimeout => exact Guards.occurring _ _ (Guards.of_kept Kept.runBoundary) t h
  case faultAssertion c => exact Guards.occurring _ _ (Guards.assertFault c) t h
  case faultRelease c => exact Guards.occurring _ _ (Guards.releaseFault c) t h
  case firstFaultSample inputs => exact Guards.occurring _ _ (Guards.updArb _) t h
  all_goals exact Guards.hostCommand _ _ _ t h

end Sys2Proof.Machine
end

section
/-! The laws after hard reset, and the obligations of the laws of the plan. -/

namespace Sys2Proof.Machine

/-! ### The laws of the plan right after hard reset (R20, R30) -/

/-- The built-in pattern is a lawful one (R22, R23). -/
theorem builtinPattern_lawful : patternLawful builtinPattern := by
  simp [patternLawful, builtinPattern, durSum, Segment.lawful]

theorem reset_lockLaw : State.reset.lockLaw := fun _ _ => by simp [State.line, State.reset, Line.reset]

theorem reset_cadenceLaw : State.reset.cadenceLaw := by
  refine ⟨fun p segs h => ?_, ?_, EditBuffer.empty_lawful⟩
  · simp only [State.reset, cadenceReset, Tab.get_set, Tab.get_fill] at h
    split at h
    · cases h; exact builtinPattern_lawful
    · contradiction
  · simp [State.reset, cadenceReset]

theorem reset_numberingLaw : State.reset.numberingLaw := by
  simp [State.numberingLaw, ordered, State.reset, lowerOf]

theorem reset_enabledLaw : State.reset.enabledLaw := fun l on => by
  simp [State.line, State.reset, Line.reset, Line.enabled] at on

theorem reset_planLaw : State.reset.planLaw := fun l => by
  have absent : ∀ i, (PartyTable.reset.entries.get i).present = false := fun i => by
    simp [PartyTable.reset, PartyEntry.reset]
  have lawful : State.reset.tableLawful PartyTable.reset :=
    ⟨fun i _ _ present => by simp [absent i] at present, fun i present => by simp [absent i] at present, nofun⟩
  have line : State.reset.line l = Line.reset := Tab.get_fill _ _
  rw [line]
  exact ⟨lawful, fun _ => lawful⟩

end Sys2Proof.Machine

open Sys2Proof Sys2Proof.Machine

/-- Settles O56, by the guard of each event; a hard reset gives the laws anew. -/
theorem planLawsAreKept : Obligations.PlanLawsAreKept := by
  intro s t lock cadence numbering enabled plan h
  unfold step at h
  split at h
  · cases h
    exact ⟨lock, cadence, numbering, enabled, plan⟩
  · next i rest _ =>
    by_cases hard : ∃ straps, i = .hardReset straps
    · obtain ⟨straps, rfl⟩ := hard
      rw [exec_hardReset] at h
      cases h
      exact ⟨reset_lockLaw, reset_cadenceLaw, reset_numberingLaw, reset_enabledLaw, reset_planLaw⟩
    · have guards := exec_guards i _ t (fun straps e => hard ⟨straps, e⟩) h
      exact ⟨guards.lock lock, guards.cadence cadence, guards.numbering numbering, guards.enabled enabled,
        guards.plan plan⟩

/-- Settles O57, by the guard of each event (R8). -/
theorem lockedLinesAreFrozen : Obligations.LockedLinesAreFrozen := by
  intro s t l law locked soft h
  unfold step at h
  split at h
  · cases h
    exact ⟨rfl, rfl⟩
  · next i rest front =>
    exact (exec_guards i _ t (fun straps e => soft straps rest (e ▸ front)) h).frozen law l locked
end

section
/-! What hard reset leaves: the values of every block, and the laws that hold of them. -/

namespace Sys2Proof.Machine

/-! ### The laws of the link, the arbiter and the counts right after hard reset -/

@[simp] theorem line_reset (l : LineNo) : State.reset.line l = Line.reset := Tab.get_fill _ _

@[simp] theorem row_reset (l : LineNo) : State.reset.row l = none := Tab.get_fill _ _

theorem reset_linkLaw : State.reset.linkLaw :=
  ⟨Nat.zero_le _, Nat.zero_le _, fun e => by simp [State.reset, Link.reset]⟩

theorem reset_arbiterLaw : State.reset.arbiterLaw where
  placedOnce := List.nodup_nil
  queuedOnce := List.nodup_nil
  placedHeld l := by simp [State.reset, Arbiter.reset, State.placed, State.row]
  queueHeld l := by simp [State.reset, Arbiter.reset, State.queued, State.row]
  alarmsFirst := List.Pairwise.nil
  supplyOn l h := by simp [State.placed] at h

theorem reset_entryLaw : State.reset.entryLaw :=
  ⟨fun l e held => by simp at held, fun l running => by simp [Line.reset] at running⟩

theorem reset_profileLaw : State.reset.profileLaw := fun c cs => by
  have noLoad : State.reset.loadOf c cs.val = fun _ => 0 := funext fun l => by simp [State.loadOf]
  rw [noLoad]
  simp [State.reset, Arbiter.reset]

theorem reset_countLaw : State.reset.countLaw :=
  ⟨Nat.zero_le _, nofun, fun l => by
    simp [Line.reset, Hook.onhookClear, PartyTest.idle, Tracking.empty]⟩

theorem State.line_hardReset (straps : Rate) (s : State) (l : LineNo) : (s.hardReset straps).line l = Line.reset :=
  line_reset l

/-- With all boundaries at 0 every suffix is unassigned (R18, R20). -/
theorem reset_decodeSuffix (n : Nat) : State.reset.decodeSuffix n = none := by
  simp [State.decodeSuffix, State.reset]

end Sys2Proof.Machine

open Sys2Proof Sys2Proof.Machine

/-- Settles O54, law by law. -/
theorem lawsHoldAfterHardReset : Obligations.LawsHoldAfterHardReset :=
  ⟨reset_linkLaw, reset_lockLaw, reset_cadenceLaw, reset_numberingLaw, reset_enabledLaw, reset_planLaw,
    reset_arbiterLaw, reset_entryLaw, reset_profileLaw, reset_countLaw⟩

/-- Settles O3: the state that HARD_RESET leaves is `State.reset` with the rate of the straps, block by block. -/
theorem hardResetValues : Obligations.HardResetValues := by
  intro straps s
  refine ⟨s.hardReset straps, exec_hardReset straps s, fun l => ?_, fun l => ?_, fun n => ?_, rfl, ?_, fun p hp => ?_, rfl,
    fun i => ?_, ?_, ?_, ?_⟩
  · rw [State.line_hardReset]
    simp [Line.reset, PartyTable.reset, PartyEntry.reset, Hook.onhookClear, PartyTest.idle, Tracking.empty,
      DigitBuffer.empty, OutList.empty, Line.suspended, Line.drive, Line.baseDrive]
  · simp [State.hardReset, State.reset]
  · exact reset_decodeSuffix n
  · simp [State.hardReset, State.reset, cadenceReset, builtinPattern]
  · simp [State.hardReset, State.reset, cadenceReset, Tab.get_set_ne _ _ hp]
  · simp [State.hardReset, State.reset, DialEntry.reset]
  · simp [State.hardReset, State.reset, Timebase.reset]
  · simp [State.hardReset, State.reset, Arbiter.reset, Arbiter.supen]
  · simp [State.hardReset, Link.reset, deviceEntry]
end

section
/-! The course of a command of the host at a ready link, in the terms of the command table; and the reading commands of
a line (R9, R14, R19, R94). -/

namespace Sys2Proof.Machine

/-- The items of a table are its values in the order of their indices. -/
theorem Tab.items_eq_map {n : Nat} {α : Type} (t : Tab n α) : t.items = (List.finRange n).map t.get := by
  apply List.ext_getElem
  · simp [t.size]
  · intro i _ _
    simp [Tab.get]

/-! ### Commands at a ready link -/

/-- A command row of the host is the arrival of its frame (R178; log 8). -/
theorem exec_instr (c : HostCmd) (tag : Byte) (p : List Byte) (s : State) :
    exec (c.instr tag p) s = hostCommand c tag p s := by
  cases c <;> rfl

/-- A command that passes its checks at a ready link is carried out, and its reply joins the queue (R180, R183). -/
theorem exec_carried (c : HostCmd) (tag : Byte) (p : List Byte) {s t : State} {reply : List Byte} (ready : s.ready)
    (length : lengthFits c p.length = true) (fields : ∀ k ∈ fieldChecks c p, k.1 = true)
    (carried : s.carry c p = (t, reply)) :
    exec (c.instr tag p) s = .next (t.replied ⟨replyKind c.code, tag, reply⟩) := by
  rw [exec_instr, hostCommand_ready c tag p s ready,
    judge_carried c p s length ((firstFailing_eq_none_iff _).mpr fields), carried]

/-- A line field that names a line passes. -/
theorem lineField_passes (l : LineNo) (p : List Byte) : (lineField (lineByte l :: p) 0).1 = true := by
  simp only [lineField, byteIn_passes_iff, byteAt_cons_zero, lineByte_toNat]
  omega

/-- The check of a command whose only field is a line (R194). -/
theorem lineField_only (l : LineNo) : ∀ k ∈ [lineField [lineByte l] 0], k.1 = true :=
  List.forall_mem_singleton.mpr (lineField_passes l [])

/-! ### The reading commands of a line -/

/-- The bytes of a party table, slot by slot (R197). -/
theorem PartyTable.bytes_eq (t : PartyTable) : t.bytes =
    (slots.flatMap fun i => partyEntryBytes (t.entries.get i)) ++ [toByte t.alarmChannel.val, patternByte t.alarmPattern] := by
  rw [PartyTable.bytes, Tab.items_eq_map, ← slots_eq, List.flatMap_map]

theorem carryPartyRead_eq (l : LineNo) (active : Bool) (s : State) :
    s.carryPartyRead [lineByte l, flagByte active] = (s,
      let t := if active then (s.line l).active else (s.line l).staged
      [0x00, flagByte (s.line l).commitPending] ++ (slots.flatMap fun i => partyEntryBytes (t.entries.get i))
        ++ [toByte t.alarmChannel.val, patternByte t.alarmPattern]) := by
  simp only [State.carryPartyRead, lineAt_line, PartyTable.bytes_eq]
  cases active <;> rfl

theorem carryLineStatus_eq (l : LineNo) (s : State) : s.carryLineStatus [lineByte l] = (s,
    let x := s.line l
    [0x00, flagByte x.fitted, toByte (if x.fitted then x.opts else x.opts &&& 0b1110).toNat]
      ++ toBytes2 x.margin ++ toBytes2 x.leakLimit ++ toBytes2 x.tripThreshold
      ++ [toByte (x.loads.get 0), toByte (x.loads.get 1), toByte (x.loads.get 2), toByte (x.loads.get 3)]
      ++ toBytes2 x.baseline
      ++ [flagByte x.leaky, flagByte x.lock, flagByte x.commitPending, x.calStatus.code, calCauseCode x.calCause,
          methodByte x.calMethod, x.call.code, x.hook.state.code]) := by
  have loads : ∀ t : Tab 4 Nat, t.items.map toByte
      = [toByte (t.get 0), toByte (t.get 1), toByte (t.get 2), toByte (t.get 3)] := fun t => by
    rw [Tab.items_eq_map, ← channels_eq]
    rfl
  simp only [State.carryLineStatus, State.ok, lineAt_line, loads]
  rfl

end Sys2Proof.Machine

open Sys2Proof Sys2Proof.Machine

/-- Settles O11: each command passes its checks, and its carrying out is the read. -/
theorem lineReadsReturnTheState : Obligations.LineReadsReturnTheState := by
  intro tag l s ready
  refine ⟨?_, fun active => ?_, ?_, ?_⟩
  · exact exec_carried .lineStatus tag _ ready rfl (lineField_only l) (carryLineStatus_eq l s)
  · refine exec_carried .partyRead tag _ ready rfl ?_ (carryPartyRead_eq l active s)
    cases active <;> simp [fieldChecks, lineField_passes, byteIn_passes_iff, byteAt, flagByte]
  · refine exec_carried .callRecordRead tag _ ready rfl (lineField_only l) ?_
    simp only [State.carry, State.carryCallRecordRead, State.ok, lineAt_line]
    cases (s.line l).completed <;> cases (s.line l).record <;> rfl
  · refine exec_carried .numberingRead tag _ ready rfl (List.forall_mem_nil _) ?_
    simp only [State.carry, State.carryNumberingRead, State.ok, lineNos_eq, Tab.items_eq_map, List.flatMap_map]
    rfl
end

section
/-! The edits of the staged table, the commit and its discard (R12, R13, R15, R17). -/

namespace Sys2Proof.Machine

/-! ### Fields of a party entry and of an alarm identity -/

@[simp] theorem Side.ofCode_code (x : Side) : Side.ofCode x.code.toNat = x := by cases x <;> rfl

theorem Side.code_le (x : Side) : x.code.toNat ≤ 2 := by cases x <;> decide

/-- A party entry reads back (R197). -/
theorem partyEntryAt_bytes (a b : Byte) (e : PartyEntry) : partyEntryAt (a :: b :: partyEntryBytes e) 2 = e := by
  have flag : ∀ x : Bool, ((flagByte x).toNat == 1) = x := by decide
  calc partyEntryAt (a :: b :: partyEntryBytes e) 2
      = ⟨(flagByte e.present).toNat == 1, Side.ofCode e.side.code.toNat, Fin.ofNat 4 (toByte e.channel.val).toNat,
          Fin.ofNat 32 (toByte e.pattern.val).toNat, (flagByte e.acceptsRevert).toNat == 1⟩ := rfl
    _ = e := by
      rw [flag, flag, Side.ofCode_code, channelByte_toNat, ofNat_channel, patternByte_toNat, ofNat_pattern]

theorem slotAt_bytes (a : Byte) (i : Slot) (p : List Byte) : slotAt (a :: slotByte (some i) :: p) 1 = i := by
  simp [slotAt]

/-- The payload of PARTY_WRITE passes its checks (R197). -/
theorem partyWrite_passes (l : LineNo) (i : Slot) (e : PartyEntry) :
    ∀ k ∈ fieldChecks .partyWrite (lineByte l :: slotByte (some i) :: partyEntryBytes e), k.1 = true := by
  have flag : ∀ b : Bool, 0 ≤ (flagByte b).toNat ∧ (flagByte b).toNat ≤ 1 := by decide
  have slot : 1 ≤ (slotByte (some i)).toNat ∧ (slotByte (some i)).toNat ≤ 8 := by rw [slotByte_toNat]; omega
  have channel : 0 ≤ (toByte e.channel.val).toNat ∧ (toByte e.channel.val).toNat ≤ 3 := by
    rw [channelByte_toNat]; omega
  have pattern : 0 ≤ (toByte e.pattern.val).toNat ∧ (toByte e.pattern.val).toNat ≤ 31 := by
    rw [patternByte_toNat]; omega
  simp only [fieldChecks, List.forall_mem_cons, lineField_passes, byteIn_passes_iff]
  exact ⟨trivial, slot, flag _, ⟨Nat.zero_le _, e.side.code_le⟩, channel, pattern, flag _, List.forall_mem_nil _⟩

/-- An alarm pattern reads back, slot 0 aside, which is no alarm pattern (R13). -/
theorem alarmPatternAt_bytes (x y : Byte) (a : Option PatternNo) : alarmPatternAt [x, y, patternByte a] 2 = a := by
  cases a with
  | none => rfl
  | some p =>
    have notNone : ¬p.val = 255 := by omega
    simp [alarmPatternAt, patternAt, byteAt, patternByte, notNone]

/-- The payload of ALARM_IDENTITY passes its checks (R197). -/
theorem alarmIdentity_passes (l : LineNo) (c : Channel) (a : Option PatternNo) (h : a ≠ some 0) :
    ∀ k ∈ fieldChecks .alarmIdentity [lineByte l, toByte c.val, patternByte a], k.1 = true := by
  have channel : 0 ≤ (toByte c.val).toNat ∧ (toByte c.val).toNat ≤ 3 := by rw [channelByte_toNat]; omega
  have pattern : (within 1 31 (patternByte a).toNat || (patternByte a).toNat == 255) = true := by
    cases a with
    | none => rfl
    | some p =>
      have : p.val ≠ 0 := fun e => h (congrArg some (Fin.ext e))
      simp only [patternByte, patternByte_toNat, within, Bool.or_eq_true, Bool.and_eq_true, decide_eq_true_eq]
      omega
  simp only [fieldChecks, List.forall_mem_cons, lineField_passes, byteIn_passes_iff]
  exact ⟨trivial, channel, pattern, List.forall_mem_nil _⟩

/-! ### The refusals of an edit -/

theorem Line.editRefusal_locked {x : Line} (h : x.lock = true) : x.editRefusal = some .locked := by
  simp [editRefusal, h]

theorem Line.editRefusal_pending {x : Line} (h : x.lock = false) (k : x.commitPending = true) :
    x.editRefusal = some .commitPending := by
  simp [editRefusal, h, k]

/-- An edit refused by the lock or by a commit pending changes nothing (R12, R13, R15). -/
theorem carryPartyWrite_refused {l : LineNo} {p : List Byte} {st : Status} {s : State}
    (h : (s.line l).editRefusal = some st) : s.carryPartyWrite (lineByte l :: p) = (s, [st.code]) := by
  simp [State.carryPartyWrite, h, State.refuse]

theorem carryAlarmIdentity_refused {l : LineNo} {p : List Byte} {st : Status} {s : State}
    (h : (s.line l).editRefusal = some st) : s.carryAlarmIdentity (lineByte l :: p) = (s, [st.code]) := by
  simp [State.carryAlarmIdentity, h, State.refuse]

theorem carryPlanCommit_refused {l : LineNo} {p : List Byte} {st : Status} {s : State}
    (h : (s.line l).editRefusal = some st) : s.carryPlanCommit (lineByte l :: p) = (s, [st.code]) := by
  simp [State.carryPlanCommit, h, State.refuse]

/-! ### The edits taken -/

/-- The staged table as PARTY_WRITE leaves it (R12). -/
def PartyTable.writeEntry (t : PartyTable) (i : Slot) (e : PartyEntry) : PartyTable :=
  { t with entries := t.entries.set i ((t.entries.get i).written e) }

theorem carryPartyWrite_taken {l : LineNo} (i : Slot) (e : PartyEntry) {s : State}
    (h : (s.line l).editRefusal = none) :
    s.carryPartyWrite (lineByte l :: slotByte (some i) :: partyEntryBytes e)
      = (s.setLine l { s.line l with staged := (s.line l).staged.writeEntry i e }, [0x00]) := by
  simp only [State.carryPartyWrite, lineAt_line, h, slotAt_bytes, partyEntryAt_bytes]
  rfl

theorem carryAlarmIdentity_taken {l : LineNo} (c : Channel) (a : Option PatternNo) {s : State}
    (h : (s.line l).editRefusal = none) :
    s.carryAlarmIdentity [lineByte l, toByte c.val, patternByte a]
      = (s.setLine l { s.line l with
          staged := { (s.line l).staged with alarmChannel := c, alarmPattern := a } }, [0x00]) := by
  have channel : channelAt [lineByte l, toByte c.val, patternByte a] 1 = c := by simp [channelAt]
  simp only [State.carryAlarmIdentity, lineAt_line, h, channel, alarmPatternAt_bytes]
  rfl

end Sys2Proof.Machine

open Sys2Proof Sys2Proof.Machine

/-- Settles O16: both edits by their refusals, and by what they write. -/
theorem stagedTableEdits : Obligations.StagedTableEdits := by
  intro tag l i e c a s ready notZero
  have write : ∀ {t reply}, s.carryPartyWrite _ = (t, reply) → _ :=
    exec_carried .partyWrite tag _ ready rfl (partyWrite_passes l i e)
  have alarm : ∀ {t reply}, s.carryAlarmIdentity _ = (t, reply) → _ :=
    exec_carried .alarmIdentity tag _ ready rfl (alarmIdentity_passes l c a notZero)
  refine ⟨fun locked => ?_, fun unlocked pending => ?_, fun unlocked free => ?_⟩
  · have refusal := Line.editRefusal_locked locked
    exact ⟨write (carryPartyWrite_refused refusal), alarm (carryAlarmIdentity_refused refusal)⟩
  · have refusal := Line.editRefusal_pending unlocked pending
    exact ⟨write (carryPartyWrite_refused refusal), alarm (carryAlarmIdentity_refused refusal)⟩
  · have taken := (Line.editRefusal_eq_none_iff _).mpr ⟨unlocked, free⟩
    refine ⟨⟨_, write (carryPartyWrite_taken i e taken), fun present => ?_, fun absent => ?_, fun j other => ?_, rfl, rfl⟩,
      alarm (carryAlarmIdentity_taken c a taken)⟩
    · simp [PartyTable.writeEntry, PartyEntry.written, present]
    · simp [PartyTable.writeEntry, PartyEntry.written, absent]
    · exact Tab.get_set_ne _ _ other
end

section
/-! PLAN_COMMIT and PLAN_DISCARD (R15, R17), LINE_LEVELS and LINE_LOADS (R5, R6). -/

namespace Sys2Proof.Machine

/-! ### What the checks of a commit find -/

/-- The AMBIGUOUS refusal names the lowest slot with a twin and its lowest twin (R15). -/
theorem PartyTable.ambiguous_eq_some {t : PartyTable} {i j : Slot} (ne : i ≠ j) (same : t.sameIdentity i j = true)
    (first : ∀ k m, k ≠ m → t.sameIdentity k m = true → i ≤ k)
    (second : ∀ m, i ≠ m → t.sameIdentity i m = true → j ≤ m) : t.ambiguous = some (i, j) := by
  have found : (slots.find? fun i => (t.twin i).isSome) = some i :=
    find_slot ((t.twin_isSome_iff i).mpr ⟨j, ne.symm, same⟩) fun k hk => by
      obtain ⟨m, hm, h⟩ := (t.twin_isSome_iff k).mp hk
      exact first k m hm.symm h
  have twin : t.twin i = some j :=
    find_slot (by simp [ne.symm, same]) fun m hm => by
      simp only [Bool.and_eq_true, bne_iff_ne] at hm
      exact second m hm.1.symm hm.2
  simp [ambiguous, found, twin]

/-- The BAD_CADENCE refusal names the lowest pattern that is referenced and not DEFINED (R15). -/
theorem State.undefinedReference_eq_some {s : State} {t : PartyTable} {p : PatternNo} (ref : t.references p = true)
    (empty : s.cadence.get p = none) (first : ∀ q, t.references q = true → s.cadence.get q = none → p ≤ q) :
    s.undefinedReference t = some p :=
  find_pattern (by simp [ref, defined, empty]) fun q hq => by
    simp only [defined, Bool.and_eq_true, Bool.not_eq_true', Option.isSome_eq_false_iff, Option.isNone_iff_eq_none] at hq
    exact first q hq.1 hq.2

/-! ### The commands carried out -/

theorem carryPlanCommit_ambiguous {l : LineNo} {i j : Slot} {s : State} (free : (s.line l).editRefusal = none)
    (h : (s.line l).staged.ambiguous = some (i, j)) :
    s.carryPlanCommit [lineByte l] = (s, [0x0F, slotByte (some i), slotByte (some j)]) := by
  simp only [State.carryPlanCommit, lineAt_line, free, h]
  rfl

theorem carryPlanCommit_badCadence {l : LineNo} {p : PatternNo} {s : State} (free : (s.line l).editRefusal = none)
    (clear : (s.line l).staged.ambiguous = none) (h : s.undefinedReference (s.line l).staged = some p) :
    s.carryPlanCommit [lineByte l] = (s, [0x10, toByte p.val]) := by
  simp only [State.carryPlanCommit, lineAt_line, free, clear, h]
  rfl

theorem carryPlanCommit_taken {l : LineNo} {s : State} (free : (s.line l).editRefusal = none)
    (lawful : s.tableLawful (s.line l).staged) :
    s.carryPlanCommit [lineByte l] = (s.setLine l { s.line l with commitPending := true }, [0x00]) := by
  obtain ⟨clear, defined⟩ := (s.tableLawful_iff _).mp lawful
  simp only [State.carryPlanCommit, lineAt_line, free, clear, defined]
  rfl

theorem carryPlanDiscard_refused {l : LineNo} {s : State} (h : (s.line l).lock = true) :
    s.carryPlanDiscard [lineByte l] = (s, [0x06]) := by
  simp only [State.carryPlanDiscard, lineAt_line, h]
  rfl

theorem carryPlanDiscard_taken {l : LineNo} {s : State} (h : (s.line l).lock = false) :
    s.carryPlanDiscard [lineByte l]
      = (s.setLine l { s.line l with staged := (s.line l).active, commitPending := false }, [0x00]) := by
  have unlocked : ¬(s.line l).lock = true := by simp [h]
  simp only [State.carryPlanDiscard, lineAt_line, if_neg unlocked]
  rfl

/-- The three words of LINE_LEVELS read back (R192, R197). -/
theorem levels_read (x : Byte) {m k t : Nat} (hm : m < 65536) (hk : k < 65536) (ht : t < 65536) :
    wordAt (x :: (toBytes2 m ++ toBytes2 k ++ toBytes2 t)) 1 = m
      ∧ wordAt (x :: (toBytes2 m ++ toBytes2 k ++ toBytes2 t)) 3 = k
      ∧ wordAt (x :: (toBytes2 m ++ toBytes2 k ++ toBytes2 t)) 5 = t :=
  ⟨twoBytes_toNat hm, twoBytes_toNat hk, twoBytes_toNat ht⟩

theorem wordIn_passes_iff (p : List Byte) (lo hi i : Nat) :
    (wordIn p lo hi i).1 = true ↔ lo ≤ wordAt p i ∧ wordAt p i ≤ hi := by
  simp [wordIn, within]

theorem lineLevels_passes (l : LineNo) {m k t : Nat} (hm : 20 ≤ m ∧ m ≤ 300) (hk : 5 ≤ k ∧ k ≤ 250)
    (ht : 20 ≤ t ∧ t ≤ 600) :
    ∀ c ∈ fieldChecks .lineLevels (lineByte l :: (toBytes2 m ++ toBytes2 k ++ toBytes2 t)), c.1 = true := by
  obtain ⟨margin, leak, trip⟩ := levels_read (lineByte l) (m := m) (k := k) (t := t) (by omega) (by omega) (by omega)
  simp only [fieldChecks, List.forall_mem_cons, lineField_passes, wordIn_passes_iff, margin, leak, trip]
  exact ⟨trivial, hm, hk, ht, List.forall_mem_nil _⟩

theorem lineLoads_passes (l : LineNo) {a b c d : Nat} (ha : a ≤ 40) (hb : b ≤ 40) (hc : c ≤ 40) (hd : d ≤ 40) :
    ∀ k ∈ fieldChecks .lineLoads [lineByte l, toByte a, toByte b, toByte c, toByte d], k.1 = true := by
  have back : ∀ {n : Nat}, n ≤ 40 → (toByte n).toNat ≤ 40 := fun {n} h => by rwa [toByte_toNat (by omega)]
  simp only [fieldChecks, List.forall_mem_cons, lineField_passes, byteIn_passes_iff]
  exact ⟨trivial, ⟨Nat.zero_le _, back ha⟩, ⟨Nat.zero_le _, back hb⟩, ⟨Nat.zero_le _, back hc⟩,
    ⟨Nat.zero_le _, back hd⟩, List.forall_mem_nil _⟩

theorem carryLineLevels_eq (l : LineNo) {m k t : Nat} (hm : m < 65536) (hk : k < 65536) (ht : t < 65536) (s : State) :
    s.carryLineLevels (lineByte l :: (toBytes2 m ++ toBytes2 k ++ toBytes2 t)) =
      if (s.line l).call = .calibrating then (s, [0x01, (s.line l).call.code])
      else (s.setLine l { s.line l with margin := m, leakLimit := k, tripThreshold := t }, [0x00]) := by
  obtain ⟨margin, leak, trip⟩ := levels_read (lineByte l) hm hk ht
  simp only [State.carryLineLevels, lineAt_line, margin, leak, trip]
  rfl

theorem loadsAt_bytes (x : Byte) {a b c d : Nat} (ha : a < 256) (hb : b < 256) (hc : c < 256) (hd : d < 256) :
    loadsAt [x, toByte a, toByte b, toByte c, toByte d] = ⟨[a, b, c, d], rfl⟩ := by
  refine Tab.ext_get fun i => ?_
  fin_cases i
  · exact toByte_toNat ha
  · exact toByte_toNat hb
  · exact toByte_toNat hc
  · exact toByte_toNat hd

theorem carryLineLoads_eq (l : LineNo) {a b c d : Nat} (ha : a < 256) (hb : b < 256) (hc : c < 256) (hd : d < 256)
    (s : State) : s.carryLineLoads [lineByte l, toByte a, toByte b, toByte c, toByte d] =
      if (s.line l).call = .calibrating ∨ s.row l ≠ none then (s, [0x01, (s.line l).call.code])
      else (s.setLine l { s.line l with loads := ⟨[a, b, c, d], rfl⟩ }, [0x00]) := by
  have busy : ((s.line l).call = .calibrating || (s.row l).isSome) = true
      ↔ (s.line l).call = .calibrating ∨ s.row l ≠ none := by
    simp [Option.isSome_iff_ne_none]
  simp only [State.carryLineLoads, lineAt_line, loadsAt_bytes _ ha hb hc hd, busy]
  rfl

end Sys2Proof.Machine

open Sys2Proof Sys2Proof.Machine

/-- Settles O17: the checks of a commit in their order, each with the refusal that it gives, and the discard. -/
theorem planCommitAndDiscard : Obligations.PlanCommitAndDiscard := by
  intro tag l s ready
  dsimp only
  have commit : ∀ {t reply}, s.carryPlanCommit _ = (t, reply) → _ :=
    exec_carried .planCommit tag _ ready rfl (lineField_only l)
  have discard : ∀ {t reply}, s.carryPlanDiscard _ = (t, reply) → _ :=
    exec_carried .planDiscard tag _ ready rfl (lineField_only l)
  refine ⟨fun locked => commit (carryPlanCommit_refused (Line.editRefusal_locked locked)),
    fun unlocked pending => commit (carryPlanCommit_refused (Line.editRefusal_pending unlocked pending)),
    fun unlocked free => ?_, fun locked => discard (carryPlanDiscard_refused locked),
    fun unlocked => discard (carryPlanDiscard_taken unlocked)⟩
  have edit := (Line.editRefusal_eq_none_iff _).mpr ⟨unlocked, free⟩
  simp only [← PartyTable.sameIdentity_iff, ← PartyTable.references_iff]
  refine ⟨fun i j same first second => ?_, fun clear p lacks first => ?_, fun clear defined => ?_⟩
  · exact commit (carryPlanCommit_ambiguous edit (PartyTable.ambiguous_eq_some same.1 same.2
      (fun k m ne h => first k m ⟨ne, h⟩) fun m ne h => second m ⟨ne, h⟩))
  · have clear' := (PartyTable.ambiguous_eq_none_iff _).mpr fun i j ne => by simpa [ne] using clear i j
    exact commit (carryPlanCommit_badCadence edit clear'
      (State.undefinedReference_eq_some lacks.2 lacks.1 fun q ref empty => first q ⟨empty, ref⟩))
  · have clear' := (PartyTable.ambiguous_eq_none_iff _).mpr fun i j ne => by simpa [ne] using clear i j
    have defined' := (State.undefinedReference_eq_none_iff s _).mpr fun p ref empty => defined p ⟨empty, ref⟩
    exact commit (carryPlanCommit_taken edit ((s.tableLawful_iff _).mpr ⟨clear', defined'⟩))

/-- Settles O18: both commands by the states in which they are refused, and by what they write. -/
theorem levelsAndLoadsAreReplaced : Obligations.LevelsAndLoadsAreReplaced := by
  intro tag l s ready
  refine ⟨fun m k t hm hm' hk hk' ht ht' => ?_, fun a b c d ha hb hc hd => ?_⟩
  · have levels := fun {t' reply} => exec_carried .lineLevels tag _ (t := t') (reply := reply) ready rfl
      (lineLevels_passes l ⟨hm, hm'⟩ ⟨hk, hk'⟩ ⟨ht, ht'⟩)
    have carried := carryLineLevels_eq l (m := m) (k := k) (t := t) (by omega) (by omega) (by omega) s
    refine ⟨fun busy => levels (carried.trans ?_), fun free => levels (carried.trans (if_neg free))⟩
    rw [if_pos busy, busy]
    rfl
  · have loads := fun {t' reply} => exec_carried .lineLoads tag _ (t := t') (reply := reply) ready rfl
      (lineLoads_passes l ha hb hc hd)
    have carried := carryLineLoads_eq l (a := a) (b := b) (c := c) (d := d) (by omega) (by omega) (by omega) (by omega) s
    exact ⟨fun busy => loads (carried.trans (if_pos busy)),
      fun free empty => loads (carried.trans (if_neg (not_or.mpr ⟨free, not_not.mpr empty⟩)))⟩
end

section
/-! Commands that name a line set: each line of the set is judged on its own (R182). LINE_LOCK (R7). -/

namespace Sys2Proof.Machine

/-! ### Line sets -/

/-- The lines of a set, ascending (R192). -/
def linesIn (w : BitVec 16) : List LineNo := lineNos.filter fun l => w.getLsbD l.val

@[simp] theorem mem_linesIn (w : BitVec 16) (l : LineNo) : l ∈ linesIn w ↔ w.getLsbD l.val = true := by
  simp [linesIn]

theorem linesIn_nodup (w : BitVec 16) : (linesIn w).Nodup := by
  rw [linesIn, lineNos_eq]
  exact (List.nodup_finRange 16).filter _

/-- A line set is echoed and read back from the first two bytes of a payload (R192). -/
theorem forSet_eq (w : BitVec 16) (q : List Byte) (f : LineNo → State → State × Status) (s : State) :
    s.forSet (toBytes2 w.toNat ++ q) f =
      ((forLines f (linesIn w) s).1, 0x00 :: toBytes2 w.toNat ++ (forLines f (linesIn w) s).2) := by
  have back : wordAt (toBytes2 w.toNat ++ q) 0 = w.toNat := twoBytes_toNat w.isLt
  unfold State.forSet
  rw [back]
  rfl

/-! ### Lines taken one by one -/

section

variable {f : LineNo → State → State × Status} {near : LineNo → State → State → Prop}

/-- A line that is not in the list is left as the works of the others leave it. -/
theorem forLines_outside (refl : ∀ l s, near l s s) (trans : ∀ {l s t u}, near l s t → near l t u → near l s u)
    (away : ∀ {l m} u, l ≠ m → near l u (f m u).1) {l : LineNo} {ls : List LineNo} (out : l ∉ ls) (s : State) :
    near l s (forLines f ls s).1 := by
  induction ls generalizing s with
  | nil => exact refl l s
  | cons m ls ih =>
    rw [List.mem_cons, not_or] at out
    exact trans (away s out.1) (ih out.2 _)

/-- A line of the list is taken in a state that the works of the others have led to, and those after it leave it. -/
theorem forLines_inside (refl : ∀ l s, near l s s) (trans : ∀ {l s t u}, near l s t → near l t u → near l s u)
    (away : ∀ {l m} u, l ≠ m → near l u (f m u).1) {l : LineNo} {ls : List LineNo} (nodup : ls.Nodup) (mem : l ∈ ls)
    (s : State) : ∃ u, near l s u ∧ near l (f l u).1 (forLines f ls s).1 := by
  induction ls generalizing s with
  | nil => simp at mem
  | cons m ls ih =>
    rw [List.nodup_cons] at nodup
    rcases List.mem_cons.mp mem with rfl | later
    · exact ⟨s, refl l s, forLines_outside refl trans away nodup.1 _⟩
    · obtain ⟨u, before, after⟩ := ih nodup.2 later (f m s).1
      exact ⟨u, trans (away (m := m) s fun e => nodup.1 (e ▸ later)) before, after⟩

/-- The outcomes of the lines are those that they have in the state before, where the works of the others do not
matter. -/
theorem forLines_outcomes
    (away : ∀ {l m} u, l ≠ m → near l u (f m u).1) {out : LineNo → State → Status}
    (outcome : ∀ l u, (f l u).2 = out l u) (stable : ∀ {l s t}, near l s t → out l t = out l s) {ls : List LineNo}
    (nodup : ls.Nodup) (s : State) : (forLines f ls s).2 = ls.map fun l => (out l s).code := by
  induction ls generalizing s with
  | nil => rfl
  | cons m ls ih =>
    rw [List.nodup_cons] at nodup
    simp only [forLines, List.map_cons, outcome, ih nodup.2]
    congr 1
    exact List.map_congr_left fun l mem => by rw [stable (away (m := m) s fun e => nodup.1 (e ▸ mem))]

end

/-- From `s` to `t` line `l` is as it was. -/
def State.SameLine (l : LineNo) (s t : State) : Prop := t.line l = s.line l

namespace State.SameLine

variable {l : LineNo} {s t u : State}

theorem eq (h : SameLine l s t) : t.line l = s.line l := h

theorem refl (l : LineNo) (s : State) : SameLine l s s := rfl

theorem trans (h : SameLine l s t) (k : SameLine l t u) : SameLine l s u := Eq.trans k h

end State.SameLine

/-! ### LINE_LOCK -/

theorem lineLockAt_snd (l : LineNo) (s : State) :
    (lineLockAt l s).2 = if (s.line l).commitPending then .commitPending else .ok := by
  unfold lineLockAt
  split <;> rfl

theorem lineLockAt_code (l : LineNo) (s : State) :
    (if (s.line l).commitPending then Status.commitPending else Status.ok).code
      = if (s.line l).commitPending then (0x07 : Byte) else 0x00 := by
  split <;> rfl

theorem line_lineLockAt (l m : LineNo) (s : State) : (lineLockAt m s).1.line l =
    if l = m ∧ (s.line l).commitPending = false then { s.line l with lock := true } else s.line l := by
  unfold lineLockAt
  split
  · next pending =>
    split
    · next h => simp [← h.1, h.2] at pending
    · rfl
  · next free =>
    simp only [State.line_updLine]
    by_cases h : l = m
    · subst h; simp [free]
    · simp [h]

/-- LINE_LOCK changes the lines alone (R7). -/
theorem forLines_lineLockAt_lines (ls : List LineNo) (s : State) :
    (forLines lineLockAt ls s).1 = { s with lines := (forLines lineLockAt ls s).1.lines } :=
  forLines_relates (R := fun s t => t = { s with lines := t.lines }) (fun _ => rfl) (fun h k => by rw [k, h])
    (fun l s => by unfold lineLockAt; split <;> rfl) ls s

end Sys2Proof.Machine

open Sys2Proof Sys2Proof.Machine

/-- Settles O19: the lines of the set are judged by their own commit-pending, which no other line's lock touches. -/
theorem lockTakesLinesWithoutCommit : Obligations.LockTakesLinesWithoutCommit := by
  intro tag w s ready
  have away : ∀ {l m} u, l ≠ m → State.SameLine l u (lineLockAt m u).1 := fun u ne => by
    simp [State.SameLine, line_lineLockAt, ne]
  refine ⟨(forLines lineLockAt (linesIn w) s).1, ?_, fun l mem free => ?_, fun l h => ?_, forLines_lineLockAt_lines _ s⟩
  · refine exec_carried .lineLock tag _ ready rfl (List.forall_mem_nil _) ?_
    have outcomes := forLines_outcomes away (fun l u => lineLockAt_snd l u)
      (fun {l u v} same => by rw [same.eq]) (linesIn_nodup w) s
    simp only [lineLockAt_code] at outcomes
    show s.forSet _ lineLockAt = _
    rw [← List.append_nil (toBytes2 w.toNat), forSet_eq, outcomes]
    rfl
  · obtain ⟨u, before, after⟩ :=
      forLines_inside State.SameLine.refl State.SameLine.trans away (linesIn_nodup w) ((mem_linesIn w l).mpr mem) s
    rw [after.eq, line_lineLockAt, before.eq, if_pos ⟨rfl, free⟩]
  · by_cases mem : w.getLsbD l.val = true
    · obtain ⟨u, before, after⟩ :=
        forLines_inside State.SameLine.refl State.SameLine.trans away (linesIn_nodup w) ((mem_linesIn w l).mpr mem) s
      have pending : (s.line l).commitPending = true := h.resolve_left (by simp [mem])
      rw [after.eq, line_lineLockAt, before.eq, if_neg (by simp [pending])]
    · exact (forLines_outside State.SameLine.refl State.SameLine.trans away (by simpa using mem) s).eq
end

section
/-! The numbering (R18, R19): boundaries in order, the ranges of locked lines, and the decoding of a suffix. -/

namespace Sys2Proof.Machine

/-! ### Boundaries -/

theorem lowerOf_zero (t : Tab 16 Nat) {l : LineNo} (h : l.val = 0) : lowerOf t l = 0 := if_pos h

/-- The boundary below a line's is that of the line before (R18). -/
theorem lowerOf_succ (t : Tab 16 Nat) {l m : LineNo} (h : l.val = m.val + 1) : lowerOf t l = t.get m := by
  have before : Fin.ofNat 16 (l.val - 1) = m := Fin.ext (by simp only [Fin.ofNat]; omega)
  rw [lowerOf, if_neg (by omega), before]

theorem exists_before {l : LineNo} (h : l.val ≠ 0) : ∃ m : LineNo, l.val = m.val + 1 :=
  ⟨⟨l.val - 1, by omega⟩, by dsimp only; omega⟩

/-- The boundaries are in order when none is above 1000 and none falls below the one before (R19). -/
theorem ordered_iff (t : Tab 16 Nat) : ordered t = true ↔
    (∀ l, t.get l ≤ 1000) ∧ ∀ l m : LineNo, m.val = l.val + 1 → t.get l ≤ t.get m := by
  have each : ordered t = true ↔ ∀ l, t.get l ≤ 1000 ∧ lowerOf t l ≤ t.get l := by simp [ordered]
  rw [each, forall_and]
  refine and_congr_right fun _ => ⟨fun h l m next => lowerOf_succ t next ▸ h m, fun h l => ?_⟩
  by_cases zero : l.val = 0
  · simp [lowerOf_zero t zero]
  · obtain ⟨m, next⟩ := exists_before zero
    rw [lowerOf_succ t next]
    exact h m l next

/-- A locked line's range moves with its own boundary or with the one below it (R19). -/
theorem State.movesLocked_iff (s : State) (t : Tab 16 Nat) : s.movesLocked t = true ↔
    ∃ l : LineNo, (s.line l).lock = true
      ∧ (t.get l ≠ s.numbering.get l ∨ ∃ m : LineNo, l.val = m.val + 1 ∧ t.get m ≠ s.numbering.get m) := by
  have lower : ∀ l : LineNo, lowerOf t l ≠ lowerOf s.numbering l
      ↔ ∃ m : LineNo, l.val = m.val + 1 ∧ t.get m ≠ s.numbering.get m := fun l => by
    constructor
    · intro h
      by_cases zero : l.val = 0
      · exact absurd ((lowerOf_zero t zero).trans (lowerOf_zero _ zero).symm) h
      · obtain ⟨m, next⟩ := exists_before zero
        exact ⟨m, next, by rwa [lowerOf_succ t next, lowerOf_succ _ next] at h⟩
    · rintro ⟨m, next, h⟩
      rwa [lowerOf_succ t next, lowerOf_succ _ next]
  simp only [movesLocked, List.any_eq_true, mem_lineNos, true_and, Bool.and_eq_true, Bool.or_eq_true, bne_iff_ne, lower]
  exact exists_congr fun l => and_congr_right fun _ => or_comm

/-- Boundaries in order do not fall (R18). -/
theorem ordered_mono {t : Tab 16 Nat} (h : ordered t = true) : Monotone t.get :=
  Fin.monotone_iff_le_succ.mpr fun _ => ((ordered_iff t).mp h).2 _ _ rfl

/-! ### NUMBERING_SET -/

/-- The boundaries of NUMBERING_SET read back (R192, R197). -/
theorem boundariesAt_bytes (b : Tab 16 Nat) (h : ∀ l, b.get l ≤ 65535) :
    boundariesAt (lineNos.flatMap fun l => toBytes2 (b.get l)) = b := by
  refine Tab.ext_get fun l => ?_
  rw [boundariesAt, Tab.get_build]
  fin_cases l <;> exact twoBytes_toNat (Nat.lt_succ_of_le (h _))

theorem carryNumberingSet_eq (b : Tab 16 Nat) (h : ∀ l, b.get l ≤ 65535) (s : State) :
    s.carryNumberingSet (lineNos.flatMap fun l => toBytes2 (b.get l)) =
      if ordered b = false then (s, [0x11]) else if s.movesLocked b then (s, [0x06])
      else ({ s with numbering := b }, [0x00]) := by
  simp only [State.carryNumberingSet, boundariesAt_bytes b h, Bool.not_eq_true']
  rfl

/-! ### Suffixes -/

/-- A suffix at or above the last boundary is unassigned (R18). -/
theorem decodeSuffix_above {s : State} {x : Nat} (h : s.numbering.get 15 ≤ x) : s.decodeSuffix x = none := if_pos h

/-- A suffix below a line's boundary and not below an earlier one is not below that line's range (R18). -/
theorem lowerOf_le {t : Tab 16 Nat} {x : Nat} {l : LineNo} (first : ∀ m, m < l → t.get m ≤ x) : lowerOf t l ≤ x := by
  by_cases zero : l.val = 0
  · simp [lowerOf_zero t zero]
  · obtain ⟨m, next⟩ := exists_before zero
    rw [lowerOf_succ t next]
    exact first m (Fin.lt_def.mpr (by omega))

/-- The decoding of a suffix in a line's range (R18). -/
theorem decodeSuffix_within {s : State} (law : s.numberingLaw) {x : Nat} {l : LineNo} (below : x < s.numbering.get l)
    (first : ∀ m, m < l → s.numbering.get m ≤ x) : s.decodeSuffix x =
      if 8 ≤ x - lowerOf s.numbering l then none
      else if ((s.line l).active.entries.get (Fin.ofNat 8 (x - lowerOf s.numbering l))).present
      then some (l, Fin.ofNat 8 (x - lowerOf s.numbering l)) else none := by
  have last : ¬s.numbering.get 15 ≤ x :=
    not_le.mpr (below.trans_le (ordered_mono law (Fin.le_last l)))
  have found : (lineNos.find? fun l => decide (x < s.numbering.get l)) = some l :=
    find_line (by simpa using below) fun k hk => by
      by_contra earlier
      exact absurd (first k (not_le.mp earlier)) (by simpa using hk)
  rw [State.decodeSuffix, if_neg last, found]
  rfl

end Sys2Proof.Machine

open Sys2Proof Sys2Proof.Machine

/-- Settles O21: the two checks of NUMBERING_SET by what they find, and the suffix by the first boundary above it. -/
theorem numberingReplacedAndDecoded : Obligations.NumberingReplacedAndDecoded := by
  unfold Obligations.NumberingReplacedAndDecoded
  dsimp only
  refine ⟨fun tag b s ready fits => ?_, fun x s law => ⟨decodeSuffix_above, fun l below first => ?_⟩⟩
  · have replaced := fun {t reply} => exec_carried .numberingSet tag (lineNos.flatMap fun l => toBytes2 (b.get l)) (t := t) (reply := reply) ready rfl
      (List.forall_mem_nil _)
    have carried := carryNumberingSet_eq b fits s
    have bad : (∃ l, 1000 < b.get l) ∨ (∃ l m : LineNo, m.val = l.val + 1 ∧ b.get m < b.get l)
        ↔ ordered b = false := by
      rw [← Bool.not_eq_true, ordered_iff]
      simp only [not_and_or, not_forall, not_le, exists_prop]
    rw [bad, ← State.movesLocked_iff]
    exact ⟨fun h => replaced (carried.trans (if_pos h)),
      fun h k => replaced (carried.trans ((if_neg h).trans (if_pos k))),
      fun h k => replaced (carried.trans ((if_neg h).trans (if_neg k)))⟩
  · have lower := lowerOf_le first
    have decoded := decodeSuffix_within law below first
    refine ⟨lower, fun beyond => decoded.trans (if_pos (by omega)), fun i here => ?_⟩
    have slot : x - lowerOf s.numbering l = i.val := by omega
    rw [decoded, slot, if_neg (by omega), ofNat_slot]
end

section
/-! What the removal of an entry, the failure of a run, the end of a call and the disabling of a line leave of the line
and in its reports (R63, R90, R93, R137, R172). -/

namespace Sys2Proof.Machine

namespace Kept

variable {s t : State} (h : Kept s t)

include h

theorem settings : t.settings = s.settings := congrArg (·.2.2.2.2.1) h.given

theorem stamp : t.stamp = s.stamp := congrArg (·.2.2.2.2.2.1.stamp) h.given

theorem mask : t.link.mask = s.link.mask := congrArg (·.2.2.2.2.2.1) h.link

end Kept

namespace State

variable {s : State} {l : LineNo}

/-! ### Removal of an entry -/

theorem removeEntry_of_none (h : s.row l = none) : s.removeEntry l = s := by simp [removeEntry, h]

@[simp] theorem removeEntry_link (l : LineNo) (s : State) : (s.removeEntry l).link = s.link := by
  unfold removeEntry
  split <;> rfl

@[simp] theorem row_removeEntry (l : LineNo) (s : State) : (s.removeEntry l).row l = none := by
  cases h : s.row l with
  | none => rw [removeEntry_of_none h, h]
  | some e =>
    unfold removeEntry
    rw [h]
    exact Tab.get_set_self _ _ _

@[simp] theorem line_removeEntry (l : LineNo) (s : State) : (s.removeEntry l).line l =
    { s.line l with play := if s.row l = none then (s.line l).play else none } := by
  cases h : s.row l with
  | none => rw [removeEntry_of_none h, if_pos rfl]
  | some e => simp [removeEntry, h]

/-! ### Failure of a run -/

theorem failRun_of_none (c : CalCause) (h : (s.line l).run = none) : s.failRun l c = s := by simp [failRun, h]

/-- A run that fails on a line with no entry left: its status, its cause, and the report (R172). -/
theorem failRun_of_some {r : Run} (c : CalCause) (removed : s.row l = none) (h : (s.line l).run = some r) :
    s.failRun l c =
      (s.updLine l fun x => { x with calStatus := .failed, calCause := some c, run := none }).markCalibration l r := by
  simp [failRun, h, removeEntry_of_none removed]

theorem line_failRun (c : CalCause) (removed : s.row l = none) : (s.failRun l c).line l =
    { s.line l with
      calStatus := if (s.line l).run = none then (s.line l).calStatus else .failed
      calCause := if (s.line l).run = none then (s.line l).calCause else some c
      run := none } := by
  cases h : (s.line l).run with
  | none => rw [failRun_of_none c h, if_pos rfl, if_pos rfl, ← h]
  | some r => simp [failRun_of_some c removed h, markCalibration]

theorem row_failRun (c : CalCause) (removed : s.row l = none) : (s.failRun l c).row l = none := by
  cases h : (s.line l).run with
  | none => rw [failRun_of_none c h, removed]
  | some r => simp [failRun_of_some c removed h, markCalibration, removed]

/-- The failure of a run is reported with the line's values as it leaves them (R172). -/
theorem failRun_reported {r : Run} (c : CalCause) (removed : s.row l = none) (h : (s.line l).run = some r) :
    s.runReported (s.failRun l c) l r := by
  unfold runReported
  rw [failRun_of_some c removed h, markCalibration_data, line_markLine]
  exact markLine_marked .calibration l _ (s.updLine l _)

/-- The failure of a run marks CALIBRATION alone (R172). -/
theorem failRun_pendingLine (c : CalCause) (removed : s.row l = none) (k : ReportKind) (other : k ≠ .calibration) :
    (s.failRun l c).pendingLine k l = s.pendingLine k l := by
  cases h : (s.line l).run with
  | none => rw [failRun_of_none c h]
  | some r =>
    rw [failRun_of_some c removed h]
    exact mark_pending_ne _ _ _ _ _ _ (.inl other)

/-! ### The end of a call -/

/-- The completed record of a line after its open record, if it has one, has completed with a cause (R93). -/
def completedAfter (s : State) (l : LineNo) (c : EndCause) : Option Record :=
  match (s.line l).record with
  | none => (s.line l).completed
  | some r => some (s.completedRecord l r c)

theorem completedAfter_of_some {r : Record} (c : EndCause) (h : (s.line l).record = some r) :
    s.completedAfter l c = some (s.completedRecord l r c) := by simp [completedAfter, h]

theorem line_completeRecord (l : LineNo) (c : EndCause) (s : State) : (s.completeRecord l c).line l =
    { s.line l with record := none, completed := s.completedAfter l c } := by
  cases h : (s.line l).record with
  | none =>
    simp only [completeRecord, completedAfter, h]
    rw [← h]
  | some r => simp [completeRecord, completedAfter, h]

/-- The line as a call state that completes its record leaves it (R56, R66, R67, R93). -/
theorem line_endCall (l : LineNo) (new : CallState) (c : EndCause) (s : State) : (s.endCall l new c).line l =
    { s.line l with
      record := none, completed := s.completedAfter l c, call := new, timer := s.settings.armed new
      dialBegun := false, track := (s.line l).trackAfter new } := by
  have put : ((s.completeRecord l c).putCall l new).line l =
      { s.line l with
        record := none, completed := s.completedAfter l c, call := new, timer := s.settings.armed new
        dialBegun := false, track := (s.line l).trackAfter new } := by
    simp only [putCall, line_updLine, line_completeRecord, (Kept.completeRecord l c).settings]
    rfl
  unfold endCall
  dsimp only
  split
  · exact put
  · simp only [markState, line_markLine, put]

@[simp] theorem row_endCall (l m : LineNo) (new : CallState) (c : EndCause) (s : State) :
    (s.endCall l new c).row m = s.row m := by
  unfold endCall completeRecord putCall markState
  dsimp only
  split <;> split <;> simp

/-- The line as a call state with no record to complete leaves it (R56, R66, R67). -/
theorem line_enter (l : LineNo) (new : CallState) (s : State) : (s.enter l new).line l =
    { s.line l with
      call := new, timer := s.settings.armed new, dialBegun := false, track := (s.line l).trackAfter new } := by
  unfold enter putCall markState
  dsimp only
  split <;> simp

@[simp] theorem row_enter (l m : LineNo) (new : CallState) (s : State) : (s.enter l new).row m = s.row m := by
  unfold enter putCall markState
  dsimp only
  split <;> simp

/-- A change of call state is told (R63). -/
theorem enter_tells {new : CallState} (h : (s.line l).call ≠ new) : s.tells (s.enter l new) l none := by
  have line : (s.enter l new).line l = (s.putCall l new).line l := by
    simp [enter, h, markState]
  unfold tells
  rw [line]
  unfold enter
  rw [if_neg h]
  exact markLine_marked _ _ _ _

theorem endCall_tells {new : CallState} (c : EndCause) (h : (s.line l).call ≠ new) :
    s.tells (s.endCall l new c) l ((s.line l).record.map fun _ => c) := by
  have cause : (if (s.line l).record.isSome then some c else none) = (s.line l).record.map fun _ => c := by
    cases (s.line l).record <;> rfl
  have line : (s.endCall l new c).line l = ((s.completeRecord l c).putCall l new).line l := by
    simp [endCall, h, markState]
  have kept : Kept s ((s.completeRecord l c).putCall l new) := (Kept.completeRecord l c).trans (Kept.putCall l new)
  unfold tells
  rw [line, ← kept.stamp, ← kept.mask, ← cause]
  unfold endCall
  rw [if_neg h]
  exact markLine_marked _ _ _ _

/-- The report of a record's completion stands after the STATE report that follows it (R93). -/
theorem endCall_ends {new : CallState} (c : EndCause) {r : Record} (h : (s.line l).record = some r) :
    s.ends (s.endCall l new c) l r (s.line l).digits c := by
  refine ⟨by rw [line_endCall], by rw [line_endCall, completedAfter_of_some c h]; rfl, ?_⟩
  have completed : (s.completeRecord l c).marked s.link.mask .callEnd l
      (lineByte l :: recordBytes (s.completedRecord l r c) (s.line l).digits) := by
    simp only [completeRecord, h]
    exact markLine_marked .callEnd l _ (s.updLine l _)
  unfold endCall
  dsimp only
  split
  · exact completed
  · exact marked_mark (t := (s.completeRecord l c).putCall l new) completed .state _ _ (.inl (by decide))

/-- The end of a call marks CALL_END and STATE alone. -/
theorem endCall_marked {m : BitVec 14} {k : ReportKind} {d : List Byte} (new : CallState) (c : EndCause)
    (h : s.marked m k l d) (notEnd : k ≠ .callEnd) (notState : k ≠ .state) : (s.endCall l new c).marked m k l d := by
  have completed : (s.completeRecord l c).marked m k l d := by
    unfold completeRecord
    split
    · exact h
    · exact marked_mark (t := s.updLine l _) h .callEnd _ _ (.inl notEnd)
  unfold endCall
  dsimp only
  split
  · exact completed
  · exact marked_mark (t := (s.completeRecord l c).putCall l new) completed .state _ _ (.inl notState)

end State

end Sys2Proof.Machine
end

section
/-! What disabling and enabling a line leave (R51, R90, R91). -/

namespace Sys2Proof.Machine.State

variable {s : State} {l : LineNo}

/-- A line that is being disabled, as its call is about to end: its entry and its run are gone, and what it had saved or
pending (R90). -/
def halted (l : LineNo) (s : State) : State :=
  ((s.removeEntry l).failRun l .canceled).updLine l fun x =>
    { x with test := PartyTest.idle, saved := none, alarmPending := none }

theorem disableLine_eq (l : LineNo) (s : State) : s.disableLine l =
    (((s.halted l).endCall l .disabled .disabled).updLine l fun x =>
      { x with digits := DigitBuffer.empty, out := OutList.empty }) := rfl

theorem halted_kept (l : LineNo) (s : State) : Kept s (s.halted l) :=
  ((Kept.removeEntry l).trans (Kept.failRun l _)).trans (Kept.updLine l _ rfl)

theorem line_halted (l : LineNo) (s : State) : (s.halted l).line l =
    { s.line l with
      play := if s.row l = none then (s.line l).play else none
      calStatus := if (s.line l).run = none then (s.line l).calStatus else .failed
      calCause := if (s.line l).run = none then (s.line l).calCause else some .canceled
      run := none, test := PartyTest.idle, saved := none, alarmPending := none } := by
  simp [halted, line_failRun]

theorem row_halted (l : LineNo) (s : State) : (s.halted l).row l = none := by
  simp [halted, row_failRun]

theorem halted_pendingLine (l : LineNo) (s : State) : (s.halted l).pendingLine .callEnd l = s.pendingLine .callEnd l :=
  (failRun_pendingLine .canceled (row_removeEntry l s) .callEnd (by decide)).trans (by simp [pendingLine])

/-- The run that the disabling of its line fails is reported (R172). -/
theorem halted_marked {r : Run} (h : (s.line l).run = some r) : (s.halted l).marked s.link.mask .calibration l
    (calibrationData l ((s.halted l).line l) r s.stamp) := by
  have reported := failRun_reported (s := s.removeEntry l) (r := r) .canceled (row_removeEntry l s) (by simp [h])
  unfold runReported at reported
  rw [removeEntry_link, (Kept.removeEntry l).stamp] at reported
  have data : calibrationData l ((s.halted l).line l) r s.stamp
      = calibrationData l (((s.removeEntry l).failRun l .canceled).line l) r s.stamp := by
    rw [halted, line_updLine, if_pos rfl]
    rfl
  rw [data]
  exact reported

/-- The record that the disabling of its line completes is the one that stood before. -/
theorem halted_completedAfter (l : LineNo) (c : EndCause) (s : State) :
    (s.halted l).completedAfter l c = s.completedAfter l c := by
  simp only [completedAfter, completedRecord, line_halted, halted_pendingLine, (halted_kept l s).stamp]

/-- A line that has been disabled (R90). -/
theorem line_disableLine (l : LineNo) (s : State) : (s.disableLine l).line l =
    { s.line l with
      play := if s.row l = none then (s.line l).play else none
      calStatus := if (s.line l).run = none then (s.line l).calStatus else .failed
      calCause := if (s.line l).run = none then (s.line l).calCause else some .canceled
      run := none, test := PartyTest.idle, saved := none, alarmPending := none
      record := none, completed := s.completedAfter l .disabled
      call := .disabled, timer := none, dialBegun := false, track := (s.line l).trackAfter .disabled
      digits := DigitBuffer.empty, out := OutList.empty } := by
  rw [disableLine_eq, line_updLine, if_pos rfl, line_endCall, halted_completedAfter, line_halted]
  rfl

theorem row_disableLine (l : LineNo) (s : State) : (s.disableLine l).row l = none := by
  rw [disableLine_eq, row_updLine, row_endCall, row_halted]

/-- Disabling fails the run of the line with its report (R90, R172). -/
theorem disableLine_runFailed {r : Run} (h : (s.line l).run = some r) : s.runFailed (s.disableLine l) l r .canceled where
  status := by simp [line_disableLine, h]
  closed := by simp [line_disableLine, row_disableLine]
  kept := by simp [line_disableLine]
  report := by
    have same : calibrationData l ((s.disableLine l).line l) r s.stamp
        = calibrationData l ((s.halted l).line l) r s.stamp := by
      rw [line_disableLine, line_halted]
      rfl
    unfold runReported
    rw [same]
    exact endCall_marked .disabled .disabled (halted_marked h) (by decide) (by decide)

/-- Disabling completes the record of the line with its report (R90, R93). -/
theorem disableLine_ends {rec : Record} (h : (s.line l).record = some rec) :
    s.ends (s.disableLine l) l rec (s.line l).digits .disabled := by
  have held : ((s.halted l).line l).record = some rec := by rw [line_halted, h]
  have done : (s.halted l).completedRecord l rec .disabled = s.completedRecord l rec .disabled := by
    have after := halted_completedAfter l .disabled s
    rw [completedAfter_of_some _ held, completedAfter_of_some _ h] at after
    exact Option.some_inj.mp after
  have ended : ((s.halted l).endCall l .disabled .disabled).marked (s.halted l).link.mask .callEnd l
      (lineByte l :: recordBytes ((s.halted l).completedRecord l rec .disabled) ((s.halted l).line l).digits) :=
    (endCall_ends .disabled held).2.2
  rw [done, (halted_kept l s).mask, line_halted] at ended
  exact ⟨by rw [line_disableLine], by rw [line_disableLine, completedAfter_of_some _ h]; rfl, ended⟩

/-- Disabling tells the change of call state (R63, R90). -/
theorem disableLine_tells (h : (s.line l).call ≠ .disabled) :
    s.tells (s.disableLine l) l ((s.line l).record.map fun _ => .disabled) := by
  have told := endCall_tells (s := s.halted l) (l := l) (new := .disabled) .disabled (by rwa [line_halted])
  unfold tells at told ⊢
  rw [(halted_kept l s).mask, (halted_kept l s).stamp, line_halted] at told
  rw [disableLine_eq, line_updLine, if_pos rfl]
  exact told

/-! ### Enabling -/

/-- A line in DISABLED that has been enabled (R51, R91). -/
theorem enableLine_of_disabled (h : (s.line l).call = .disabled) : s.enableLine l =
    (s.updLine l fun x => { x with hook := Hook.onhookClear }).enter l .idle := by simp [enableLine, h]

end Sys2Proof.Machine.State
end

section
/-! The present indication (R2): the scan of a line that is not fitted, and the loss of a line circuit. -/

namespace Sys2Proof.Machine

/-- The tables of the device are as they were where `given` is. -/
theorem State.SameTables.of_given {s t : State} (h : t.given = s.given) : s.SameTables t := by
  simp only [State.given, Prod.mk.injEq] at h
  obtain ⟨hn, hc, he, hd, hs, ht, _, hp⟩ := h
  exact ⟨hn, hc, he, hd, hs, by rw [ht], hp⟩

/-- A scan moves of the timebase what `SameTables` allows (R31). -/
theorem State.SameTables.of_scan {s t : State} {l : LineNo} (h : t.given = (s.countScan l).given) : s.SameTables t := by
  simp only [State.given, Prod.mk.injEq] at h
  obtain ⟨hn, hc, he, hd, hs, ht, _, hp⟩ := h
  refine ⟨hn, hc, he, hd, hs, ?_, hp⟩
  rw [ht]
  exact Timebase.scan_moves _ _

namespace State

variable {s t v : State} {l : LineNo}

/-! ### Marks that an event leaves where they stand -/

/-- A report of a completed record depends on what the event found of the stamp, the mask and the pending CALL_END. -/
theorem ends_of_before {rec : Record} {ds : DigitBuffer} {c : EndCause} (h : v.ends t l rec ds c)
    (stamp : v.stamp = s.stamp) (mask : v.link.mask = s.link.mask)
    (pending : v.pendingLine .callEnd l = s.pendingLine .callEnd l) : s.ends t l rec ds c := by
  unfold pendingLine at pending
  unfold ends at h ⊢
  rwa [stamp, mask, pending] at h

theorem tells_of_before {c : Option EndCause} (h : v.tells t l c) (stamp : v.stamp = s.stamp)
    (mask : v.link.mask = s.link.mask) (call : (v.line l).call = (s.line l).call) : s.tells t l c := by
  unfold tells at h ⊢
  rwa [stamp, mask, call] at h

/-- Disabling marks CALIBRATION, CALL_END and STATE alone. -/
theorem disableLine_marked {m : BitVec 14} {k : ReportKind} {d : List Byte} (h : s.marked m k l d)
    (notCal : k ≠ .calibration) (notEnd : k ≠ .callEnd) (notState : k ≠ .state) : (s.disableLine l).marked m k l d := by
  have removed : (s.removeEntry l).marked m k l d :=
    marked_of_link h (by rw [removeEntry_link]) (by rw [removeEntry_link])
  have failed : ((s.removeEntry l).failRun l .canceled).marked m k l d := by
    cases run : ((s.removeEntry l).line l).run with
    | none => rwa [failRun_of_none _ run]
    | some r =>
      rw [failRun_of_some _ (row_removeEntry l s) run]
      exact marked_mark (t := (s.removeEntry l).updLine l _) removed .calibration _ _ (.inl notCal)
  exact endCall_marked (s := s.halted l) .disabled .disabled failed notEnd notState

/-! ### The scan of a line that is not fitted -/

/-- The line as such a scan leaves it (R2, R56). -/
theorem line_unfittedScan (present : Bool) (m : LineNo) : (s.unfittedScan l present).line m =
    if m = l then { s.line l with presentSeen := true, fitted := present, track := ⟨0, 0⟩ } else s.line m := by
  unfold unfittedScan markLineFault
  dsimp only
  split <;> simp only [line_markLine, line_updLine] <;> rfl

theorem unfittedScan_given (present : Bool) : (s.unfittedScan l present).given = s.given := by
  unfold unfittedScan
  dsimp only
  split
  · exact (Kept.markLineFault _ _).given
  · rfl

theorem unfittedScan_core (present : Bool) : (s.unfittedScan l present).link.core = s.link.core := by
  unfold unfittedScan
  dsimp only
  split
  · exact (Kept.markLineFault _ _).link
  · rfl

theorem unfittedScan_arb (present : Bool) : (s.unfittedScan l present).arb = s.arb := by
  unfold unfittedScan markLineFault
  dsimp only
  split <;> simp

/-- A line circuit that returns after the first reading is reported (R2). -/
theorem unfittedScan_returned (seen : (s.line l).presentSeen = true) : (s.unfittedScan l true).marked s.link.mask
    .lineFault l [lineByte l, 1, 1, flagByte (s.line l).leaky] := by
  have marked := markLine_marked .lineFault l [lineByte l, 1, 1, flagByte (s.line l).leaky]
    (s.updLine l fun x => { x with presentSeen := true, fitted := true, track := Tracking.empty })
  simpa [unfittedScan, seen, markLineFault, LineFaultCause.code, flagByte] using marked

theorem unfittedScan_silent {present : Bool} (h : (s.line l).presentSeen = false ∨ present = false) :
    (s.unfittedScan l present).link = s.link := by
  have none' : ((s.line l).presentSeen && present) = false := by
    rcases h with h | h <;> simp [h]
  simp [unfittedScan, none']

/-! ### The loss of a line circuit -/

/-- The line whose circuit is lost, before it is disabled (R2). -/
def circuitLost (l : LineNo) (s : State) : State :=
  (s.updLine l fun x =>
    { x with fitted := false, opts := withoutEnabled x.opts, track := Tracking.empty }).markLineFault l .fittedLost

theorem fittedLost_eq (l : LineNo) (s : State) : s.fittedLost l = (s.circuitLost l).disableLine l := rfl

theorem line_circuitLost (l : LineNo) (s : State) : (s.circuitLost l).line l =
    { s.line l with fitted := false, opts := (s.line l).opts &&& 0b1110, track := ⟨0, 0⟩ } := by
  simp only [circuitLost, markLineFault, line_markLine, line_updLine]
  rfl

theorem circuitLost_given (l : LineNo) (s : State) : (s.circuitLost l).given = s.given := (Kept.markLineFault _ _).given

theorem circuitLost_arb (l : LineNo) (s : State) : (s.circuitLost l).arb.given = s.arb.given :=
  (Kept.markLineFault _ _).arb

theorem circuitLost_core (l : LineNo) (s : State) : (s.circuitLost l).link.core = s.link.core :=
  (Kept.markLineFault _ _).link

theorem circuitLost_local (l : LineNo) (s : State) : Local l s (s.circuitLost l) :=
  (Local.updLine _ _).trans (Local.markLineFault _ _)

theorem row_circuitLost (l m : LineNo) (s : State) : (s.circuitLost l).row m = s.row m := by
  simp [circuitLost, markLineFault]

theorem circuitLost_marked (l : LineNo) (s : State) : (s.circuitLost l).marked s.link.mask .lineFault l
    [lineByte l, 0, 0, flagByte (s.line l).leaky] := by
  have marked := markLine_marked .lineFault l [lineByte l, 0, 0, flagByte (s.line l).leaky]
    (s.updLine l fun x => { x with fitted := false, opts := withoutEnabled x.opts, track := Tracking.empty })
  simpa [circuitLost, markLineFault, LineFaultCause.code, flagByte] using marked

theorem circuitLost_pendingLine (l : LineNo) (s : State) :
    (s.circuitLost l).pendingLine .callEnd l = s.pendingLine .callEnd l :=
  mark_pending_ne _ _ _ _ _ (s.updLine l _) (.inl (by decide))

theorem circuitLost_stamp (l : LineNo) (s : State) : (s.circuitLost l).stamp = s.stamp :=
  congrArg (·.2.2.2.2.2.1.stamp) (circuitLost_given l s)

theorem circuitLost_mask (l : LineNo) (s : State) : (s.circuitLost l).link.mask = s.link.mask :=
  congrArg (·.2.2.2.2.2.1) (circuitLost_core l s)

/-- The line as the loss of its circuit leaves it (R2, R54, R59, R90): disabled, with its plan and its levels. -/
theorem line_fittedLost (l : LineNo) (s : State) : (s.fittedLost l).line l =
    { s.line l with
      fitted := false, opts := (s.line l).opts &&& 0b1110, track := ⟨0, 0⟩
      play := if s.row l = none then (s.line l).play else none
      calStatus := if (s.line l).run = none then (s.line l).calStatus else .failed
      calCause := if (s.line l).run = none then (s.line l).calCause else some .canceled
      run := none, test := PartyTest.idle, saved := none, alarmPending := none
      record := none, completed := (s.circuitLost l).completedAfter l .disabled
      call := .disabled, timer := none, dialBegun := false
      digits := DigitBuffer.empty, out := OutList.empty } := by
  have track : ((s.circuitLost l).line l).trackAfter .disabled = ⟨0, 0⟩ := by
    simp [Line.trackAfter, line_circuitLost, Tracking.empty]
  rw [fittedLost_eq, line_disableLine, track, row_circuitLost, line_circuitLost]

theorem fittedLost_ends {rec : Record} (h : (s.line l).record = some rec) :
    s.ends (s.fittedLost l) l rec (s.line l).digits .disabled := by
  have ended := disableLine_ends (s := s.circuitLost l) (l := l) (rec := rec) (by rw [line_circuitLost, h])
  rw [line_circuitLost] at ended
  exact ends_of_before ended (circuitLost_stamp l s) (circuitLost_mask l s) (circuitLost_pendingLine l s)

theorem fittedLost_tells (h : (s.line l).call ≠ .disabled) :
    s.tells (s.fittedLost l) l ((s.line l).record.map fun _ => .disabled) := by
  have told := disableLine_tells (s := s.circuitLost l) (l := l) (by rwa [line_circuitLost])
  rw [line_circuitLost] at told
  exact tells_of_before told (circuitLost_stamp l s) (circuitLost_mask l s) (by rw [line_circuitLost])

theorem fittedLost_marked (l : LineNo) (s : State) : (s.fittedLost l).marked s.link.mask .lineFault l
    [lineByte l, 0, 0, flagByte (s.line l).leaky] :=
  disableLine_marked (circuitLost_marked l s) (by decide) (by decide) (by decide)

theorem fittedLost_local (l : LineNo) (s : State) : Local l s (s.fittedLost l) :=
  (circuitLost_local l s).trans (Local.disableLine l)

/-! ### Scans in their time -/

@[simp] theorem line_countScan (l m : LineNo) (s : State) : (s.countScan l).line m = s.line m := rfl

@[simp] theorem row_countScan (l m : LineNo) (s : State) : (s.countScan l).row m = s.row m := rfl

@[simp] theorem stamp_countScan (l : LineNo) (s : State) : (s.countScan l).stamp = s.stamp :=
  Timebase.scan_stamp _ _

theorem scanLine_unfitted {r : Reading} (h : (s.line l).fitted = false) :
    s.scanLine l r = (s.countScan l).unfittedScan l r.present := by simp [scanLine, h]

theorem scanLine_lost {r : Reading} (h : (s.line l).fitted = true) (k : r.present = false) :
    s.scanLine l r = (s.countScan l).fittedLost l := by simp [scanLine, h, k]

end State

end Sys2Proof.Machine

open Sys2Proof Sys2Proof.Machine

/-- Settles O31: a scan in its time is counted, and then judged by the fitted flag and the present indication. -/
theorem presentIndicationIsFollowed : Obligations.PresentIndicationIsFollowed := by
  refine ⟨fun l r s paced unfitted => ?_, fun l r s paced fitted lost => ?_⟩
  · refine ⟨_, execScan_of_paced r paced, ?_⟩
    rw [State.scanLine_unfitted unfitted]
    refine ⟨?_, fun m other => ?_, .of_scan (State.unfittedScan_given _), ?_, ?_, fun seen present => ?_,
      State.unfittedScan_silent (s := s.countScan l)⟩
    · rw [State.line_unfittedScan, if_pos rfl, State.line_countScan]
    · rw [State.line_unfittedScan, if_neg other, State.line_countScan]
    · rw [State.unfittedScan_arb]; rfl
    · rw [State.unfittedScan_core]; rfl
    · rw [present]
      exact State.unfittedScan_returned (s := s.countScan l) seen
  · refine ⟨_, execScan_of_paced r paced, ?_⟩
    rw [State.scanLine_lost fitted lost]
    have line := State.line_fittedLost l (s.countScan l)
    have kept : Kept ((s.countScan l).circuitLost l) ((s.countScan l).fittedLost l) := Kept.disableLine l
    have apart := State.fittedLost_local l (s.countScan l)
    rw [State.line_countScan] at line
    rw [line]
    refine ⟨rfl, rfl, rfl, rfl, rfl, rfl, rfl, rfl, rfl, rfl, rfl, State.row_disableLine l _,
      fun running => ⟨if_neg running, if_neg running⟩, rfl, fun rec open' => ?_, fun on => ?_,
      State.fittedLost_marked l (s.countScan l), rfl, rfl, rfl, rfl, rfl, rfl, rfl, rfl, rfl, rfl,
      fun m other => ⟨apart.line m other, apart.row m other⟩,
      .of_scan (kept.given.trans (State.circuitLost_given l _)),
      kept.arb.trans (State.circuitLost_arb l _), kept.link.trans (State.circuitLost_core l _)⟩
    · exact State.ends_of_before (State.fittedLost_ends (s := s.countScan l) open') (State.stamp_countScan l s) rfl rfl
    · exact State.tells_of_before (State.fittedLost_tells (s := s.countScan l) on) (State.stamp_countScan l s) rfl rfl
end

section
/-! LINE_OPTIONS (R4): an option set taken by one line, and what the works of the other lines leave of a line and of its
reports. -/

namespace Sys2Proof.Machine

/-! ### What leaves the reports of a line alone -/

/-- From `s` to `t` the report slots and the pending set of line `l` are as they were. -/
structure Unmarked (l : LineNo) (s t : State) : Prop where
  slots : t.link.slots.get (State.lineEntry l) = s.link.slots.get (State.lineEntry l)
  sets : t.link.pendingSets.get (State.lineEntry l) = s.link.pendingSets.get (State.lineEntry l)

namespace Unmarked

variable {s t u : State} {l m : LineNo}

theorem refl (l : LineNo) (s : State) : Unmarked l s s := ⟨rfl, rfl⟩

theorem trans (h : Unmarked l s t) (k : Unmarked l t u) : Unmarked l s u :=
  ⟨k.slots.trans h.slots, k.sets.trans h.sets⟩

theorem of_link (h : t.link = s.link) : Unmarked l s t := ⟨by rw [h], by rw [h]⟩

/-- A report of another line. -/
theorem markLine (k : ReportKind) (d : List Byte) (h : l ≠ m) : Unmarked l s (s.markLine k m d) := by
  have away : State.lineEntry l ≠ State.lineEntry m := fun e => h (State.lineEntry_injective e)
  unfold State.markLine State.mark
  split
  · exact ⟨Tab.get_set_ne _ _ away, Tab.get_set_ne _ _ away⟩
  · exact refl l s

theorem failRun (c : CalCause) (h : l ≠ m) : Unmarked l s (s.failRun m c) := by
  unfold State.failRun
  split
  · exact refl l s
  · exact Unmarked.trans (t := (s.removeEntry m).updLine m _) (of_link (State.removeEntry_link m s)) (markLine _ _ h)

theorem completeRecord (c : EndCause) (h : l ≠ m) : Unmarked l s (s.completeRecord m c) := by
  unfold State.completeRecord
  split
  · exact refl l s
  · exact Unmarked.trans (t := s.updLine m _) (of_link rfl) (markLine _ _ h)

theorem enter (new : CallState) (h : l ≠ m) : Unmarked l s (s.enter m new) := by
  have put : Unmarked l s (s.putCall m new) := of_link rfl
  unfold State.enter
  dsimp only
  split
  · exact put
  · exact put.trans (markLine _ _ h)

theorem endCall (new : CallState) (c : EndCause) (h : l ≠ m) : Unmarked l s (s.endCall m new c) := by
  have put : Unmarked l s ((s.completeRecord m c).putCall m new) := (completeRecord c h).trans (of_link rfl)
  unfold State.endCall
  dsimp only
  split
  · exact put
  · exact put.trans (markLine _ _ h)

theorem disableLine (h : l ≠ m) : Unmarked l s (s.disableLine m) := by
  have halted : Unmarked l s (s.halted m) :=
    ((of_link (State.removeEntry_link m s)).trans (failRun .canceled h)).trans (of_link rfl)
  exact halted.trans ((endCall .disabled .disabled h).trans (of_link rfl))

theorem enableLine (h : l ≠ m) : Unmarked l s (s.enableLine m) := by
  unfold State.enableLine
  split
  · exact Unmarked.trans (t := s.updLine m _) (of_link rfl) (enter _ h)
  · exact refl l s

/-- A marked report of the line stays. -/
theorem marked (h : Unmarked l s t) {mask : BitVec 14} {k : ReportKind} {d : List Byte} (marked : s.marked mask k l d) :
    t.marked mask k l d := by
  intro on
  rw [h.slots, h.sets]
  exact marked on

end Unmarked

/-! ### What leaves the device alone -/

/-- From `s` to `t` the tables and settings of the device, and the queues and the mask of its link, are as they were. -/
structure Aside (s t : State) : Prop where
  given : t.given = s.given
  arb : t.arb.given = s.arb.given
  core : t.link.core = s.link.core

namespace Aside

variable {s t u : State}

theorem refl (s : State) : Aside s s := ⟨rfl, rfl, rfl⟩

theorem trans (h : Aside s t) (k : Aside t u) : Aside s u :=
  ⟨k.given.trans h.given, k.arb.trans h.arb, k.core.trans h.core⟩

theorem of_kept (h : Kept s t) : Aside s t := ⟨h.given, h.arb, h.link⟩

theorem stamp (h : Aside s t) : t.stamp = s.stamp := congrArg (·.2.2.2.2.2.1.stamp) h.given

theorem mask (h : Aside s t) : t.link.mask = s.link.mask := congrArg (·.2.2.2.2.2.1) h.core

theorem takeOptions (l : LineNo) (o : BitVec 4) : Aside s (s.takeOptions l o) := by
  have taken : Aside s (s.updLine l fun x => { x with opts := o }) := ⟨rfl, rfl, rfl⟩
  unfold State.takeOptions
  dsimp only
  split
  · exact taken.trans (of_kept (Kept.enableLine l))
  · split
    · exact taken.trans (of_kept (Kept.disableLine l))
    · exact taken

theorem lineOptionsAt (f : WriteForm) (v : BitVec 4) (l : LineNo) (s : State) :
    Aside s (Machine.lineOptionsAt f v l s).1 := by
  unfold Machine.lineOptionsAt
  dsimp only
  split
  · exact takeOptions l _
  · exact refl s

theorem forLines (f : LineNo → State → State × Status) (h : ∀ l u, Aside u (f l u).1) (ls : List LineNo) (s : State) :
    Aside s (Machine.forLines f ls s).1 := forLines_relates refl trans h ls s

end Aside

/-! ### What leaves a line alone -/

/-- From `s` to `t` line `l`, its row, and its reports are as they were, and so is the device. -/
structure Apart (l : LineNo) (s t : State) : Prop where
  aside : Aside s t
  unmarked : Unmarked l s t
  line : t.line l = s.line l
  row : t.row l = s.row l

namespace Apart

variable {s t u : State} {l m : LineNo}

theorem refl (l : LineNo) (s : State) : Apart l s s := ⟨.refl s, .refl l s, rfl, rfl⟩

theorem trans (h : Apart l s t) (k : Apart l t u) : Apart l s u :=
  ⟨h.aside.trans k.aside, h.unmarked.trans k.unmarked, k.line.trans h.line, k.row.trans h.row⟩

theorem takeOptions (o : BitVec 4) (h : l ≠ m) : Apart l s (s.takeOptions m o) := by
  have taken : Local m s (s.updLine m fun x => { x with opts := o }) := Local.updLine _ _
  have unmarked : Unmarked l s (s.updLine m fun x => { x with opts := o }) := .of_link rfl
  have work : Local m s (s.takeOptions m o) ∧ Unmarked l s (s.takeOptions m o) := by
    unfold State.takeOptions
    dsimp only
    split
    · exact ⟨taken.trans (Local.enableLine m), unmarked.trans (.enableLine h)⟩
    · split
      · exact ⟨taken.trans (Local.disableLine m), unmarked.trans (.disableLine h)⟩
      · exact ⟨taken, unmarked⟩
  exact ⟨.takeOptions m o, work.2, work.1.line l h, work.1.row l h⟩

/-- The judging of another line (R182). -/
theorem lineOptionsAt (f : WriteForm) (v : BitVec 4) {l m : LineNo} (s : State) (h : l ≠ m) :
    Apart l s (Machine.lineOptionsAt f v m s).1 := by
  unfold Machine.lineOptionsAt
  dsimp only
  split
  · exact takeOptions _ h
  · exact refl l s

theorem pendingLine (h : Apart l s t) (k : ReportKind) : t.pendingLine k l = s.pendingLine k l := by
  unfold State.pendingLine
  rw [h.unmarked.sets]

/-! What an event of line `l` leaves behind it does so too with the works of other lines before and after it. -/

variable {v w : State}

theorem tells (before : Apart l s u) (after : Apart l v w) {c : Option EndCause} (h : u.tells v l c) :
    s.tells w l c := by
  have told := State.tells_of_before h before.aside.stamp before.aside.mask (by rw [before.line])
  unfold State.tells at told ⊢
  rw [after.line]
  exact after.unmarked.marked told

theorem ends (before : Apart l s u) (after : Apart l v w) {rec : Record} {ds : DigitBuffer} {c : EndCause}
    (h : u.ends v l rec ds c) : s.ends w l rec ds c := by
  obtain ⟨record, completed, marked⟩ := State.ends_of_before h before.aside.stamp before.aside.mask (before.pendingLine _)
  exact ⟨by rw [after.line, record], by rw [after.line, completed], after.unmarked.marked marked⟩

theorem runFailed (before : Apart l s u) (after : Apart l v w) {r : Run} {c : CalCause} (h : u.runFailed v l r c) :
    s.runFailed w l r c where
  status := by rw [after.line]; exact h.status
  closed := by rw [after.line, after.row]; exact h.closed
  kept := by rw [after.line, ← before.line]; exact h.kept
  report := by
    have report := h.report
    unfold State.runReported at report ⊢
    rw [before.aside.mask, before.aside.stamp] at report
    rw [after.line]
    exact after.unmarked.marked report

end Apart

/-! ### An option set taken by a line -/

namespace State

variable {s : State} {l : LineNo} {new : BitVec 4}

theorem takeOptions_same (h : new.getLsbD 0 = (s.line l).opts.getLsbD 0) :
    s.takeOptions l new = s.updLine l fun x => { x with opts := new } := by
  unfold takeOptions Line.enabled
  rw [h]
  cases (s.line l).opts.getLsbD 0 <;> rfl

theorem takeOptions_enables (on : new.getLsbD 0 = true) (off : (s.line l).opts.getLsbD 0 = false) :
    s.takeOptions l new = (s.updLine l fun x => { x with opts := new }).enableLine l := by
  simp only [takeOptions, Line.enabled, on, off]
  rfl

theorem takeOptions_disables (off : new.getLsbD 0 = false) (on : (s.line l).opts.getLsbD 0 = true) :
    s.takeOptions l new = (s.updLine l fun x => { x with opts := new }).disableLine l := by
  simp only [takeOptions, Line.enabled, on, off]
  rfl

/-- What taking an option set keeps of the line, whatever becomes of ENABLED (R4, R90, R91). -/
theorem takeOptions_keeps (l : LineNo) (new : BitVec 4) (s : State) : (s.takeOptions l new).line l =
    { (s.takeOptions l new).line l with
      fitted := (s.line l).fitted, margin := (s.line l).margin, leakLimit := (s.line l).leakLimit
      tripThreshold := (s.line l).tripThreshold, loads := (s.line l).loads, baseline := (s.line l).baseline
      lock := (s.line l).lock, commitPending := (s.line l).commitPending, staged := (s.line l).staged
      active := (s.line l).active, opts := new } := by
  have taken : (s.updLine l fun x => { x with opts := new }).line l = { s.line l with opts := new } := by simp
  unfold takeOptions
  dsimp only
  split
  · unfold enableLine
    split
    · rw [line_enter, line_updLine, if_pos rfl, taken]
    · rw [taken]
  · split
    · rw [line_disableLine, taken]
    · rw [taken]

end State

/-! ### An option set taken among those of other lines -/

section

variable {s u t : State} {l : LineNo} {new : BitVec 4}

theorem options_keep (before : Apart l s u) (after : Apart l (u.takeOptions l new) t) : t.line l =
    { t.line l with
      fitted := (s.line l).fitted, margin := (s.line l).margin, leakLimit := (s.line l).leakLimit
      tripThreshold := (s.line l).tripThreshold, loads := (s.line l).loads, baseline := (s.line l).baseline
      lock := (s.line l).lock, commitPending := (s.line l).commitPending, staged := (s.line l).staged
      active := (s.line l).active, opts := new } := by
  rw [after.line, ← before.line]
  exact State.takeOptions_keeps l new u

/-- An option set that leaves ENABLED as it is (R4). -/
theorem options_same (before : Apart l s u) (after : Apart l (u.takeOptions l new) t)
    (h : new.getLsbD 0 = (s.line l).opts.getLsbD 0) :
    t.line l = { s.line l with opts := new } ∧ t.row l = s.row l := by
  rw [after.line, after.row, State.takeOptions_same (by rw [before.line, h])]
  simp [before.line, before.row]

/-- An option set that enables a line in DISABLED (R4, R91). -/
theorem options_enable (before : Apart l s u) (after : Apart l (u.takeOptions l new) t) (on : new.getLsbD 0 = true)
    (off : (s.line l).opts.getLsbD 0 = false) (disabled : (s.line l).call = .disabled) :
    (t.line l).call = .idle ∧ (t.line l).hook = Hook.onhookClear ∧ t.row l = s.row l ∧ s.tells t l none := by
  rw [State.takeOptions_enables on (by rw [before.line, off]),
    State.enableLine_of_disabled (by simp [before.line, disabled])] at after
  refine ⟨?_, ?_, ?_, before.tells after ?_⟩
  · rw [after.line, State.line_enter]
  · rw [after.line, State.line_enter]; simp
  · rw [after.row, State.row_enter]; simp [before.row]
  · refine State.tells_of_before (State.enter_tells ?_) rfl rfl ?_ <;> simp [before.line, disabled]

/-- An option set that disables a line, with the line as it then stands (R4, R90). -/
theorem options_disable (before : Apart l s u) (after : Apart l (u.takeOptions l new) t) (off : new.getLsbD 0 = false)
    (on : (s.line l).opts.getLsbD 0 = true) :
    (t.line l).call = .disabled ∧ t.row l = none ∧ (t.line l).test = PartyTest.idle ∧ (t.line l).run = none
      ∧ (t.line l).record = none ∧ (t.line l).alarmPending = none ∧ (t.line l).timer = none
      ∧ (t.line l).saved = none ∧ (t.line l).digits = DigitBuffer.empty ∧ (t.line l).out = OutList.empty
      ∧ (t.line l).play = (if s.row l = none then (s.line l).play else none)
      ∧ (t.line l).track = (if (s.line l).call = .idle then ⟨0, 0⟩ else (s.line l).track)
      ∧ (∀ r, (s.line l).run = some r → s.runFailed t l r .canceled)
      ∧ (∀ rec, (s.line l).record = some rec → s.ends t l rec (s.line l).digits .disabled)
      ∧ ((s.line l).call ≠ .disabled → s.tells t l ((s.line l).record.map fun _ => .disabled)) := by
  rw [State.takeOptions_disables off (by rw [before.line, on])] at after
  have taken : (u.updLine l fun x => { x with opts := new }).line l = { s.line l with opts := new } := by
    simp [before.line]
  have line := after.line
  rw [State.line_disableLine, taken, State.row_updLine, before.row] at line
  have row := after.row
  rw [State.row_disableLine] at row
  rw [line, row]
  refine ⟨rfl, rfl, rfl, rfl, rfl, rfl, rfl, rfl, rfl, rfl, rfl, ?_, fun r running => ?_, fun rec open' => ?_,
    fun called => ?_⟩
  · simp [Line.trackAfter, Tracking.empty]
  · have failed := State.disableLine_runFailed (s := u.updLine l fun x => { x with opts := new }) (l := l) (r := r)
      (by rw [taken, running])
    refine before.runFailed after ⟨failed.status, failed.closed, ?_, failed.report⟩
    have kept := failed.kept
    rw [taken] at kept
    rw [before.line]
    exact kept
  · have ended := State.disableLine_ends (s := u.updLine l fun x => { x with opts := new }) (l := l) (rec := rec)
      (by rw [taken, open'])
    rw [taken] at ended
    exact before.ends after (State.ends_of_before ended rfl rfl rfl)
  · have told := State.disableLine_tells (s := u.updLine l fun x => { x with opts := new }) (l := l)
      (by rwa [taken])
    rw [taken] at told
    exact before.tells after (State.tells_of_before told rfl rfl (by rw [taken, before.line]))

end

/-! ### The judging of a line -/

/-- The outcome of LINE_OPTIONS for a line, check by check (R4). -/
theorem Line.optionsOutcome_eq (x : Line) (new : BitVec 4) : x.optionsOutcome new =
    if x.lock ∧ new &&& 0b1110 ≠ x.opts &&& 0b1110 then .locked
    else if new.getLsbD 1 ≠ x.opts.getLsbD 1 ∧ x.call ≠ .idle ∧ x.call ≠ .disabled then .busy
    else if new.getLsbD 0 ∧ x.fitted = false then .notFitted
    else .ok := by
  have frozen : (x.lock && (new &&& frozenFlags) != (x.opts &&& frozenFlags)) = true
      ↔ x.lock = true ∧ new &&& 0b1110 ≠ x.opts &&& 0b1110 := by
    rw [Bool.and_eq_true, bne_iff_ne]
    rfl
  have reversed : (new.getLsbD 1 != x.sideReverse && !(x.call == .idle || x.call == .disabled)) = true
      ↔ new.getLsbD 1 ≠ x.opts.getLsbD 1 ∧ x.call ≠ .idle ∧ x.call ≠ .disabled := by
    simp only [Line.sideReverse, Bool.and_eq_true, bne_iff_ne, Bool.not_eq_true', Bool.or_eq_false_iff, beq_eq_false_iff_ne]
  have absent : (new.getLsbD 0 && !x.fitted) = true ↔ new.getLsbD 0 = true ∧ x.fitted = false := by
    rw [Bool.and_eq_true, Bool.not_eq_true']
  simp only [optionsOutcome, frozen, reversed, absent]

theorem lineOptionsAt_ok {f : WriteForm} {v : BitVec 4} {l : LineNo} {s : State}
    (h : (s.line l).optionsOutcome (f.apply (s.line l).opts v) = .ok) :
    (lineOptionsAt f v l s).1 = s.takeOptions l (f.apply (s.line l).opts v) := if_pos h

theorem lineOptionsAt_refused {f : WriteForm} {v : BitVec 4} {l : LineNo} {s : State}
    (h : (s.line l).optionsOutcome (f.apply (s.line l).opts v) ≠ .ok) : (lineOptionsAt f v l s).1 = s := if_neg h

theorem lineOptionsAt_snd (f : WriteForm) (v : BitVec 4) (l : LineNo) (s : State) :
    (lineOptionsAt f v l s).2 = (s.line l).optionsOutcome (f.apply (s.line l).opts v) := rfl

section

variable (f : WriteForm) (v : BitVec 4) (w : BitVec 16) (s : State) {l : LineNo}

/-- A line out of the set, or one that refuses its options, is left alone (R4, R182). -/
theorem forLines_options_refused
    (h : w.getLsbD l.val = false ∨ (s.line l).optionsOutcome (f.apply (s.line l).opts v) ≠ .ok) :
    Apart l s (forLines (lineOptionsAt f v) (linesIn w) s).1 := by
  by_cases mem : w.getLsbD l.val = true
  · obtain ⟨u, before, after⟩ := forLines_inside Apart.refl Apart.trans (Apart.lineOptionsAt f v) (linesIn_nodup w)
      ((mem_linesIn w l).mpr mem) s
    have bad := h.resolve_left (by simp [mem])
    rw [lineOptionsAt_refused (by rwa [before.line])] at after
    exact before.trans after
  · exact forLines_outside Apart.refl Apart.trans (Apart.lineOptionsAt f v) (fun out => mem ((mem_linesIn w l).mp out)) s

/-- A line of the set with the outcome OK takes its options between the works of the other lines (R4, R182). -/
theorem forLines_options_taken (mem : w.getLsbD l.val = true)
    (ok : (s.line l).optionsOutcome (f.apply (s.line l).opts v) = .ok) :
    ∃ u, Apart l s u ∧ Apart l (u.takeOptions l (f.apply (s.line l).opts v))
      (forLines (lineOptionsAt f v) (linesIn w) s).1 := by
  obtain ⟨u, before, after⟩ := forLines_inside Apart.refl Apart.trans (Apart.lineOptionsAt f v) (linesIn_nodup w)
    ((mem_linesIn w l).mpr mem) s
  rw [lineOptionsAt_ok (by rwa [before.line]), before.line] at after
  exact ⟨u, before, after⟩

theorem forLines_options_outcomes : (forLines (lineOptionsAt f v) (linesIn w) s).2 =
    (linesIn w).map fun l => ((s.line l).optionsOutcome (f.apply (s.line l).opts v)).code :=
  forLines_outcomes (Apart.lineOptionsAt f v) (lineOptionsAt_snd f v) (fun near => by rw [near.line]) (linesIn_nodup w) s

end

/-- The payload of LINE_OPTIONS passes its checks (R197). -/
theorem lineOptions_passes (w : BitVec 16) (code : Fin 3) (v : BitVec 4) :
    ∀ k ∈ fieldChecks .lineOptions (toBytes2 w.toNat ++ [toByte code.val, toByte v.toNat]), k.1 = true := by
  have form : (toByte code.val).toNat ≤ 2 := by rw [toByte_toNat (by omega)]; omega
  have flags : (toByte v.toNat).toNat ≤ 15 := by rw [toByte_toNat (by omega)]; omega
  simp only [fieldChecks, List.forall_mem_cons, byteIn_passes_iff]
  exact ⟨⟨Nat.zero_le _, form⟩, ⟨Nat.zero_le _, flags⟩, List.forall_mem_nil _⟩

theorem carryLineOptions_eq (w : BitVec 16) (code : Fin 3) (v : BitVec 4) (s : State) :
    s.carryLineOptions (toBytes2 w.toNat ++ [toByte code.val, toByte v.toNat]) =
      s.forSet (toBytes2 w.toNat ++ [toByte code.val, toByte v.toNat])
        (lineOptionsAt (WriteForm.ofCode code.val) v) := by
  have form : byteAt (toBytes2 w.toNat ++ [toByte code.val, toByte v.toNat]) 2 = code.val := toByte_toNat (by omega)
  have flags : byteAt (toBytes2 w.toNat ++ [toByte code.val, toByte v.toNat]) 3 = v.toNat := toByte_toNat (by omega)
  rw [State.carryLineOptions, form, flags, BitVec.ofNat_toNat, BitVec.setWidth_eq]

end Sys2Proof.Machine

open Sys2Proof Sys2Proof.Machine

/-- Settles O20: each line of the set is judged and taken in a state that the works of the other lines have led to, and
these leave the line, its row and its reports alone. -/
theorem optionsTakenLineByLine : Obligations.OptionsTakenLineByLine := by
  intro tag w code v s ready new outcome
  have form : ∀ l, (WriteForm.ofCode code.val).apply (s.line l).opts v = new l := fun l => by fin_cases code <;> rfl
  have judged : ∀ l, outcome l = (s.line l).optionsOutcome (new l) := fun l => (Line.optionsOutcome_eq _ _).symm
  have refused := fun l => forLines_options_refused (WriteForm.ofCode code.val) v w s (l := l)
  have taken := fun l => forLines_options_taken (WriteForm.ofCode code.val) v w s (l := l)
  have outcomes := forLines_options_outcomes (WriteForm.ofCode code.val) v w s
  have aside := Aside.forLines _ (Aside.lineOptionsAt (WriteForm.ofCode code.val) v) (linesIn w) s
  simp only [form, ← judged] at refused taken outcomes
  refine ⟨(forLines (lineOptionsAt (WriteForm.ofCode code.val) v) (linesIn w) s).1, ?_,
    fun l h => ⟨(refused l h).line, (refused l h).row⟩, fun l mem ok => ?_, fun l => ?_,
    .of_given aside.given, aside.arb, aside.core⟩
  · refine exec_carried .lineOptions tag _ ready rfl (lineOptions_passes w code v) ?_
    show s.carryLineOptions _ = _
    rw [carryLineOptions_eq, forSet_eq, outcomes]
    rfl
  · obtain ⟨u, before, after⟩ := taken l mem ok
    exact ⟨by rw [options_keep before after], options_same before after, options_enable before after,
      options_disable before after⟩
  · by_cases ok : w.getLsbD l.val = true ∧ outcome l = .ok
    · obtain ⟨u, before, after⟩ := taken l ok.1 ok.2
      rw [options_keep before after]
      exact ⟨rfl, rfl, rfl, rfl, rfl, rfl, rfl, rfl, rfl, rfl⟩
    · rw [(refused l (by simpa [imp_iff_not_or] using ok)).line]
      exact ⟨rfl, rfl, rfl, rfl, rfl, rfl, rfl, rfl, rfl, rfl⟩
end

section
/-! The reading commands of the device (R29, R99, R145, R189). -/

namespace Sys2Proof.Machine

/-- The check of a command whose only field is a byte with a range (R194). -/
theorem byteIn_only {p : List Byte} {lo hi i : Nat} (h : lo ≤ byteAt p i ∧ byteAt p i ≤ hi) :
    ∀ k ∈ [byteIn p lo hi i], k.1 = true :=
  List.forall_mem_singleton.mpr ((byteIn_passes_iff p lo hi i).mpr h)

/-- A pattern field that names any pattern passes (R29). -/
theorem patternField_passes (p : PatternNo) : ∀ k ∈ fieldChecks .cadenceRead [toByte p.val], k.1 = true :=
  byteIn_only ⟨Nat.zero_le _, by rw [byteAt_cons_zero, patternByte_toNat]; omega⟩

@[simp] theorem patternAt_byte (p : PatternNo) (q : List Byte) : patternAt (toByte p.val :: q) 0 = p := by
  simp [patternAt]

/-! ### The payload of ARBITER_READ -/

theorem arbiterRead_order_passes (x y : Byte) : ∀ k ∈ fieldChecks .arbiterRead [0, x, y], k.1 = true := by
  simp [fieldChecks, arbiterReadChecks, byteIn_passes_iff, byteAt]

theorem arbiterRead_entry_passes (l : LineNo) (y : Byte) :
    ∀ k ∈ fieldChecks .arbiterRead [1, lineByte l, y], k.1 = true := by
  have line : (lineField [1#8, lineByte l, y] 1).1 = true := lineField_passes l [y]
  simp [fieldChecks, arbiterReadChecks, byteIn_passes_iff, byteAt, line]

theorem arbiterRead_profile_passes (c : Channel) (half : Fin 2) :
    ∀ k ∈ fieldChecks .arbiterRead [2, toByte c.val, toByte half.val], k.1 = true := by
  have channel : c.val ≤ 3 := by omega
  have part : (toByte half.val).toNat ≤ 1 := by rw [toByte_toNat (by omega)]; omega
  simp [fieldChecks, arbiterReadChecks, byteIn_passes_iff, byteAt, channel, part]

/-! ### What the commands read -/

theorem carryDeviceStatus_eq {s : State} (ready : s.ready) : s.carryDeviceStatus [] = (s,
    let t := s.timebase; let v := s.settings; let a := s.arb
    [0x00, t.role.code, followerCode t.follower, toByte t.position.val, flagByte t.parity] ++ stampBytes t.stamp
        ++ toBytes2 v.firstDigit ++ toBytes2 v.interdigit ++ toBytes2 v.exchangeWait ++ toBytes2 v.hangupWait
        ++ toBytes2 v.revertNoAnswer ++ toBytes2 v.termNoAnswer ++ toBytes2 v.reorder
        ++ [toByte v.idThreshold] ++ toBytes2 v.answerCurrent
        ++ [toByte a.phaseBase, toByte a.stride, toByte a.waitThreshold, toByte a.unitCurrent, toByte a.assumedLoad,
            toByte a.standbyFrames, toByte a.warmUpFrames, toByte a.reloadMask.toNat, toByte a.wakeMask.toNat]
        ++ toBytes2 s.link.mask.toNat
        ++ [toByte s.link.faults.toNat, 0, toByte s.link.replies.length, rateCode s.link.rate]) := by
  simp only [State.carryDeviceStatus, State.ok, ready.1]
  rfl

theorem carryArbiterRead_order (x y : Byte) (s : State) : s.carryArbiterRead [0, x, y] = (s,
    [0x00, s.arb.supply.code, toByte s.arb.standbyCount, toByte s.arb.warmUpCount, toByte s.arb.faults.toNat,
     toByte s.arb.placedOrder.length] ++ s.arb.placedOrder.map lineByte
      ++ [toByte s.arb.waitQueue.length] ++ s.arb.waitQueue.map lineByte
      ++ [toByte (s.arb.waitQueue.filter s.alarmEntry).length]) := rfl

theorem carryArbiterRead_entry (l : LineNo) (y : Byte) (s : State) :
    s.carryArbiterRead [1, lineByte l, y] = (s, 0x00 :: entryBytes (s.row l)) := by
  have line : lineAt [1, lineByte l, y] 1 = l := lineAt_line l [y]
  simp only [State.carryArbiterRead, line]
  rfl

theorem carryArbiterRead_profile (c : Channel) (half : Fin 2) (s : State) :
    s.carryArbiterRead [2, toByte c.val, toByte half.val] = (s,
      (List.range 60).map fun k => toByte (min 255 (profileAt s.arb.profile c (half.val * 60 + k)))) := by
  have channel : channelAt [2, toByte c.val, toByte half.val] 1 = c := by simp [channelAt, byteAt]
  have part : byteAt [2, toByte c.val, toByte half.val] 2 = half.val := toByte_toNat (by omega)
  simp only [State.carryArbiterRead, channel, part]
  rfl

theorem carryCadenceRead_eq (p : PatternNo) (s : State) : s.carryCadenceRead [toByte p.val] = (s,
    match s.cadence.get p with
    | none => [0x00, toByte p.val, 0, 0]
    | some segs => [0x00, toByte p.val, 1, toByte segs.length] ++ segs.flatMap segmentBytes) := by
  simp only [State.carryCadenceRead, patternAt_byte, byteAt_cons_zero, patternByte_toNat]
  cases s.cadence.get p <;> rfl

theorem carryDialplanRead_eq (s : State) : s.carryDialplanRead [] = (s,
    0x00 :: (((List.finRange 12).map s.dialPlan.get).flatMap dialEntryBytes)) := by
  simp only [State.carryDialplanRead, State.ok, Tab.items_eq_map]
  rfl

end Sys2Proof.Machine

open Sys2Proof Sys2Proof.Machine

/-- Settles O10: each command passes its checks, and its carrying out is the read. -/
theorem deviceReadsReturnTheState : Obligations.DeviceReadsReturnTheState := by
  intro tag s ready
  have arbiter : ∀ {p reply}, p.length = 3 → _ → s.carryArbiterRead p = (s, reply) → _ := fun {p reply} length fields =>
    exec_carried .arbiterRead tag p (reply := reply) ready (by rw [length]; rfl) fields
  have cadence : ∀ p {reply}, s.carryCadenceRead _ = (s, reply) → _ := fun p {reply} =>
    exec_carried .cadenceRead tag _ (reply := reply) ready rfl (patternField_passes p)
  refine ⟨?_, fun x y => ?_, fun l y empty => ?_, fun l y e held => ?_, fun c half => ?_, fun p empty => ?_,
    fun p segs defined => ?_, ?_⟩
  · exact exec_carried .deviceStatus tag _ ready rfl (List.forall_mem_nil _) (carryDeviceStatus_eq ready)
  · exact arbiter rfl (arbiterRead_order_passes x y) (carryArbiterRead_order x y s)
  · exact arbiter rfl (arbiterRead_entry_passes l y) (by rw [carryArbiterRead_entry, empty]; rfl)
  · refine arbiter rfl (arbiterRead_entry_passes l y) ?_
    rw [carryArbiterRead_entry, held]
    obtain ⟨_, _, _, voiceB, state, _, _⟩ := e
    cases voiceB <;> cases state <;> rfl
  · exact arbiter rfl (arbiterRead_profile_passes c half) (carryArbiterRead_profile c half s)
  · exact cadence p (by rw [carryCadenceRead_eq, empty])
  · refine cadence p ?_
    rw [carryCadenceRead_eq, defined]
    rfl
  · refine exec_carried .dialplanRead tag _ ready rfl (List.forall_mem_nil _) (carryDialplanRead_eq s)
end

section
/-! TIMEBASE_SET (R32). -/

namespace Sys2Proof.Machine

@[simp] theorem Role.ofCode_code (r : Role) : Role.ofCode r.code.toNat = r := by cases r <;> rfl

theorem Role.code_le (r : Role) : r.code.toNat ≤ 2 := by cases r <;> decide

/-- The role field of TIMEBASE_SET passes (R196). -/
theorem timebaseSet_passes (r : Role) : ∀ k ∈ fieldChecks .timebaseSet [r.code], k.1 = true :=
  byteIn_only ⟨Nat.zero_le _, r.code_le⟩

theorem carryTimebaseSet_eq (r : Role) (s : State) : s.carryTimebaseSet [r.code] =
    if s.timebase.role = r then (s, [0x00]) else (s.changeRole r, [0x00]) := by
  simp only [State.carryTimebaseSet, byteAt_cons_zero, Role.ofCode_code]
  rfl

/-! ### The change of role -/

theorem Timebase.withRole_eq (t : Timebase) (r : Role) : t.withRole r = { t with
    role := r, follower := if r = .follower then some .acquiring else none, latch := false, remembered := none
    windowOpen := false } := by
  cases r <;> rfl

namespace State

variable (s : State)

/-- A marked SYNC carries the role, the follower state and the stamp as they stand (R32, R199). -/
theorem markSync_marked : s.markSync.markedDevice s.link.mask .sync
    ([s.timebase.role.code, followerCode s.timebase.follower] ++ stampBytes s.timebase.stamp) := fun enabled =>
  ⟨mark_slot_self _ _ _ s enabled, mark_pending_self _ _ _ s enabled⟩

/-- SYNC changes the link alone, and of it the marks alone (R186). -/
theorem markSync_eq : s.markSync = { s with link := s.markSync.link } := mark_eq s _ _ _

@[simp] theorem markSync_timebase : s.markSync.timebase = s.timebase := by rw [markSync_eq]

@[simp] theorem changeRole_timebase (r : Role) : (s.changeRole r).timebase = s.timebase.withRole r :=
  markSync_timebase _

theorem changeRole_eq (r : Role) :
    s.changeRole r = { s with timebase := (s.changeRole r).timebase, link := (s.changeRole r).link } := by
  unfold changeRole
  rw [markSync_timebase]
  exact markSync_eq _

theorem changeRole_core (r : Role) : (s.changeRole r).link.core = s.link.core :=
  (Kept.markSync (s := s.updTimebase fun t => t.withRole r)).link

end State

end Sys2Proof.Machine

open Sys2Proof Sys2Proof.Machine

/-- Settles O15: the role named again is read back, and a new one is the change of role with its report. -/
theorem roleChangesBySet : Obligations.RoleChangesBySet := by
  intro tag r s ready
  have set : ∀ {t reply}, s.carryTimebaseSet _ = (t, reply) → _ :=
    exec_carried .timebaseSet tag _ ready rfl (timebaseSet_passes r)
  refine ⟨fun same => set ?_, fun other => ⟨s.changeRole r, set ?_, ?_⟩⟩
  · rw [carryTimebaseSet_eq, if_pos same]
  · rw [carryTimebaseSet_eq, if_neg other]
  · have report := (s.updTimebase fun t => t.withRole r).markSync_marked
    have whole := s.changeRole_eq r
    rw [State.updTimebase_timebase, Timebase.withRole_eq] at report
    rw [State.changeRole_timebase, Timebase.withRole_eq] at whole ⊢
    exact ⟨rfl, fun h => if_pos h, fun h => if_neg h, rfl, rfl, rfl, rfl, rfl, rfl, report, whole, s.changeRole_core r⟩
end

section
/-! CADENCE_OPEN and CADENCE_PUT (R24, R25). -/

namespace Sys2Proof.Machine

/-- The pattern field of CADENCE_OPEN and CADENCE_CLEAR passes but for slot 0 (R24, R28). -/
theorem ownPattern_passes {p : PatternNo} (h : p ≠ 0) : ∀ k ∈ [byteIn [toByte p.val] 1 31 0], k.1 = true := by
  have lo : p.val ≠ 0 := fun e => h (Fin.ext e)
  refine byteIn_only ?_
  rw [byteAt_cons_zero, patternByte_toNat]
  omega

/-! ### The payload of CADENCE_PUT -/

theorem segmentBytes_flatMap_length (gs : List Segment) : (gs.flatMap segmentBytes).length = 2 * gs.length := by
  induction gs with
  | nil => rfl
  | cons g gs ih => simp only [List.flatMap_cons, List.length_append, ih, segmentBytes, List.length_cons, List.length_nil]; omega

theorem cadencePut_length {gs : List Segment} (h : gs.length ≤ 12) :
    lengthFits .cadencePut (gs.flatMap segmentBytes).length = true := by
  simp only [lengthFits, segmentBytes_flatMap_length, Bool.and_eq_true, beq_iff_eq, decide_eq_true_eq]
  omega

/-- The segments of a payload read back (R198). -/
theorem segmentsOf_bytes (gs : List Segment) (h : ∀ g ∈ gs, g.lawful) :
    segmentsOf (gs.flatMap segmentBytes) = gs := by
  induction gs with
  | nil => rfl
  | cons g gs ih =>
    rw [List.forall_mem_cons] at h
    have level : ((flagByte g.on).toNat == 1) = g.on := by cases g.on <;> rfl
    have dur : (toByte g.dur).toNat = g.dur := toByte_toNat (by have := h.1.2; omega)
    show ⟨(flagByte g.on).toNat == 1, (toByte g.dur).toNat⟩ :: segmentsOf (gs.flatMap segmentBytes) = g :: gs
    rw [level, dur, ih h.2]

/-- Segments with a lawful duration pass (R25). -/
theorem segmentChecks_pass (i : Nat) (gs : List Segment) (h : ∀ g ∈ gs, g.lawful) :
    ∀ k ∈ segmentChecks i (gs.flatMap segmentBytes), k.1 = true := by
  induction gs generalizing i with
  | nil => exact List.forall_mem_nil _
  | cons g gs ih =>
    rw [List.forall_mem_cons] at h
    have level : (flagByte g.on).toNat ≤ 1 := by cases g.on <;> decide
    have dur : within 1 60 (toByte g.dur).toNat = true := by
      rw [toByte_toNat (by have := h.1.2; omega)]
      simpa [within, Segment.lawful] using h.1
    show ∀ k ∈ _ :: _ :: segmentChecks (i + 2) (gs.flatMap segmentBytes), k.1 = true
    rw [List.forall_mem_cons, List.forall_mem_cons]
    exact ⟨decide_eq_true level, dur, ih (i + 2) h.2⟩

/-! ### Segments taken one at a time -/

/-- The cursor and the sum leave room for every segment of a list in turn (R25). -/
def RoomFor (held : List Segment) (taken : List Segment) : Prop :=
  ∀ front g, front ++ [g] <+: taken → held.length + front.length < 12 ∧ durSum (held ++ front) + g.dur ≤ 60

theorem RoomFor.head {held taken : List Segment} {g : Segment} (h : RoomFor held (g :: taken)) :
    held.length < 12 ∧ durSum held + g.dur ≤ 60 := by
  simpa using h [] g (by simp)

theorem RoomFor.tail {held taken : List Segment} {g : Segment} (h : RoomFor held (g :: taken)) :
    RoomFor (held ++ [g]) taken := fun front k before => by
  have room := h (g :: front) k (by simpa using before)
  simp only [List.length_cons, List.append_assoc, List.length_append, List.length_nil, List.singleton_append] at room ⊢
  exact ⟨by omega, room.2⟩

/-- Segments for which there is room are appended, and the taking goes on behind them (R25). -/
theorem putSegments_append (held taken rest : List Segment) (n : Nat) (room : RoomFor held taken) :
    putSegments (taken ++ rest) held n = putSegments rest (held ++ taken) (n + taken.length) := by
  induction taken generalizing held n with
  | nil => simp
  | cons g taken ih =>
    have ⟨cursor, sum⟩ := room.head
    rw [List.cons_append, putSegments, if_neg (by omega), if_neg (by omega), ih _ _ room.tail]
    simp [Nat.add_assoc, Nat.add_comm 1]

/-- CADENCE_PUT on a bound buffer: the segments before the one that stops it are appended (R25). -/
theorem carryCadencePut_eq {gs : List Segment} (lawful : ∀ g ∈ gs, g.lawful) {s : State} {p : PatternNo}
    (bound : s.edit.bound = some p) {taken rest : List Segment} {st : Status} (split : gs = taken ++ rest)
    (room : RoomFor s.edit.segs taken)
    (stop : putSegments rest (s.edit.segs ++ taken) taken.length = ⟨st, taken.length, s.edit.segs ++ taken⟩) :
    s.carryCadencePut (gs.flatMap segmentBytes) = ({ s with edit := ⟨some p, s.edit.segs ++ taken⟩ },
      [st.code, toByte taken.length, toByte (s.edit.segs.length + taken.length),
        toByte (durSum (s.edit.segs ++ taken))]) := by
  have put := putSegments_append s.edit.segs taken rest 0 room
  rw [Nat.zero_add, stop, ← split] at put
  simp only [State.carryCadencePut, bound, segmentsOf_bytes gs lawful, put, List.length_append]

end Sys2Proof.Machine

open Sys2Proof Sys2Proof.Machine

/-- Settles O22: the put runs through the segments that fit, to the end or to the one that stops it. -/
theorem editBufferTakesSegments : Obligations.EditBufferTakesSegments := by
  intro tag s ready
  refine ⟨fun p own => ?_, fun gs short lawful => ?_⟩
  · refine exec_carried .cadenceOpen tag _ ready rfl (ownPattern_passes own) ?_
    simp only [State.carry, State.carryCadenceOpen, patternAt_byte]
    rfl
  · have put : ∀ {t reply}, s.carryCadencePut _ = (t, reply) → _ :=
      exec_carried .cadencePut tag _ ready (cadencePut_length short) (segmentChecks_pass 0 gs lawful)
    refine ⟨fun unbound => put ?_, fun p bound taken rest split room status => ?_⟩
    · simp only [State.carryCadencePut, unbound]
      rfl
    · have eq := fun {st} => carryCadencePut_eq (st := st) lawful bound split room
      rintro (⟨rfl, rfl⟩ | ⟨more, full, rfl⟩ | ⟨g, tail, rfl, cursor, long, rfl⟩)
      · exact put (eq rfl)
      · obtain ⟨g, tail, rfl⟩ := List.exists_cons_of_ne_nil more
        exact put (eq (st := .cursorEnd) (if_pos (by rwa [List.length_append])))
      · exact put (eq (st := .tooLong)
          ((if_neg (by rw [List.length_append]; omega)).trans (if_pos long)))
end

section
/-! CADENCE_STORE and CADENCE_CLEAR (R26 to R28): what holds a reference to a pattern, and the commands by their checks. -/

namespace Sys2Proof.Machine

/-! ### References to a pattern -/

theorem Entry.names_iff (e : Entry) (p : PatternNo) :
    e.names p = true ↔ e.voiceA.pattern = p ∨ ∃ b, e.voiceB = some b ∧ b.pattern = p := by
  unfold names
  cases e.voiceB <;> simp

namespace State

variable (s : State) (p : PatternNo) (l : LineNo)

/-- The arbiter entry of a line references the patterns of its voices (R27). -/
theorem entryNames_iff : s.entryNames p l = true ↔
    ∃ e, s.row l = some e ∧ (e.voiceA.pattern = p ∨ ∃ b, e.voiceB = some b ∧ b.pattern = p) := by
  unfold entryNames
  cases s.row l <;> simp [Entry.names_iff]

/-- The three kinds of reference to a pattern (R27). -/
theorem lineReferences_iff : s.lineReferences p l = true ↔
    (s.line l).active.references p = true ∨ ((s.line l).commitPending = true ∧ (s.line l).staged.references p = true)
      ∨ s.entryNames p l = true := by
  simp only [lineReferences, Bool.or_eq_true, Bool.and_eq_true, or_assoc]

end State

/-! ### CADENCE_STORE -/

section

variable {s : State} {k : PatternNo}

theorem carryCadenceStore_notOpen (h : s.edit.bound = none) : s.carryCadenceStore [] = (s, [0x0D]) := by
  simp only [State.carryCadenceStore, h]
  rfl

theorem carryCadenceStore_incomplete (h : s.edit.bound = some k) (short : durSum s.edit.segs < 60) :
    s.carryCadenceStore [] = (s, [0x0A, toByte (durSum s.edit.segs)]) := by
  simp only [State.carryCadenceStore, h, if_pos short]
  rfl

theorem carryCadenceStore_badCadence (h : s.edit.bound = some k) (long : 60 ≤ durSum s.edit.segs)
    (off : ∀ g ∈ s.edit.segs, g.on = false) : s.carryCadenceStore [] = (s, [0x10]) := by
  have silent : s.edit.segs.any (·.on) = false := by simpa using off
  simp only [State.carryCadenceStore, h, if_neg (Nat.not_lt.mpr long), silent]
  rfl

/-- A complete pattern with an ON segment is stored unless an entry rings with the slot (R26). -/
theorem carryCadenceStore_eq (h : s.edit.bound = some k) (long : 60 ≤ durSum s.edit.segs) {g : Segment}
    (mem : g ∈ s.edit.segs) (on : g.on = true) : s.carryCadenceStore [] =
      match lineNos.find? fun l => s.entryNames k l with
      | some l => (s, [0x09, lineByte l])
      | none => ({ s with cadence := s.cadence.set k (some s.edit.segs), edit := ⟨none, []⟩ }, [0x00]) := by
  have rings : s.edit.segs.any (·.on) = true := List.any_eq_true.mpr ⟨g, mem, on⟩
  simp only [State.carryCadenceStore, h, if_neg (Nat.not_lt.mpr long), rings]
  cases lineNos.find? fun l => s.entryNames k l <;> rfl

end

/-- CADENCE_CLEAR empties the slot unless a line references it (R28). -/
theorem carryCadenceClear_eq (p : PatternNo) (s : State) : s.carryCadenceClear [toByte p.val] =
    match lineNos.find? fun l => s.lineReferences p l with
    | some l => (s, [0x09, lineByte l])
    | none => ({ s with cadence := s.cadence.set p none }, [0x00]) := by
  simp only [State.carryCadenceClear, patternAt_byte]
  cases lineNos.find? fun l => s.lineReferences p l <;> rfl

end Sys2Proof.Machine

open Sys2Proof Sys2Proof.Machine

/-- Settles O23: the checks in their order; the line that a refusal names is the first that the search finds. -/
theorem patternsInUseAreKept : Obligations.PatternsInUseAreKept := by
  intro tag s ready
  dsimp only
  have store : ∀ {t reply}, s.carryCadenceStore [] = (t, reply) → _ :=
    exec_carried .cadenceStore tag [] ready rfl (List.forall_mem_nil _)
  simp only [← State.entryNames_iff, ← PartyTable.references_iff, ← State.lineReferences_iff, Bool.not_eq_true]
  refine ⟨fun unbound => store (carryCadenceStore_notOpen unbound), fun k bound => ⟨fun short => ?_, fun long => ⟨fun off => ?_,
    fun g mem on => ⟨fun l rings first => ?_, fun free => ?_⟩⟩⟩, fun p own => ⟨fun l holds first => ?_, fun free => ?_⟩⟩
  · exact store (carryCadenceStore_incomplete bound short)
  · exact store (carryCadenceStore_badCadence bound long off)
  · exact store (by rw [carryCadenceStore_eq bound long mem on, find_line rings first])
  · exact store (by rw [carryCadenceStore_eq bound long mem on, find_line_none.mpr free])
  · refine exec_carried .cadenceClear tag _ ready rfl (ownPattern_passes own) ?_
    exact (carryCadenceClear_eq p s).trans (by rw [find_line holds first])
  · refine exec_carried .cadenceClear tag _ ready rfl (ownPattern_passes own) ?_
    exact (carryCadenceClear_eq p s).trans (by rw [find_line_none.mpr free])
end

section
/-! The capacity in force (R38, R122) and the admission search (R128). -/

namespace Sys2Proof.Machine

/-! ### The capacity in force -/

theorem Timebase.blind_iff (t : Timebase) : t.blind = true ↔
    t.role = .follower ∧ (t.follower = some .acquiring ∨ t.follower = some .lost) := by
  simp [blind]

theorem smallest_le (t : Tab 4 Nat) (w : Fin 4) : smallest t ≤ t.get w := by
  fin_cases w <;> simp [smallest]

theorem smallest_attained (t : Tab 4 Nat) : ∃ w, smallest t = t.get w := by
  have pick : ∀ {a b : Nat}, (∃ w, a = t.get w) → (∃ w, b = t.get w) → ∃ w, min a b = t.get w := fun {a b} ha hb => by
    rcases min_choice a b with h | h
    · rwa [h]
    · rwa [h]
  exact pick (pick ⟨0, rfl⟩ ⟨1, rfl⟩) (pick ⟨2, rfl⟩ ⟨3, rfl⟩)

namespace State

variable (s : State) (c : Channel) (cs : Nat)

/-- A faulted channel has no capacity (R122). -/
theorem capacity_faulted (h : s.arb.faults.getLsbD c.val = true) : s.capacity c cs = 0 := if_pos h

/-- While the windows are unknown the smallest capacity is in force (R38). -/
theorem capacity_blind (h : s.arb.faults.getLsbD c.val = false) (blind : s.timebase.blind = true) :
    s.capacity c cs = smallest (s.arb.caps.get c) := by
  have clear : s.arb.faulted c = false := h
  simp [capacity, clear, blind]

/-- Otherwise the capacity of the window of the cycle step is (R38, R122). -/
theorem capacity_window (h : s.arb.faults.getLsbD c.val = false) (sees : s.timebase.blind = false) :
    s.capacity c cs = (s.arb.caps.get c).get (windowOf cs) := by
  have clear : s.arb.faulted c = false := h
  simp [capacity, clear, sees]

end State

theorem windowOf_val (cs : Nat) : (windowOf cs).val = cs % 60 / 15 := Nat.mod_eq_of_lt (by omega)

/-! ### The admission search -/

/-- The voice in use is one of the entry's voices (R126). -/
theorem Entry.voiceInUse_load {e : Entry} (a : 0 < e.voiceA.load) (b : ∀ v, e.voiceB = some v → 0 < v.load) (p : Nat) :
    0 < (e.voiceInUse p).load := by
  unfold voiceInUse
  split
  · exact a
  · next v h =>
    split
    · exact a
    · exact b v h

namespace State

variable (s : State) {e : Entry} (φ cs : Nat)

/-- An entry whose voices carry loads is ON where it has a load on some channel (R126). -/
theorem voiceOn_ne_none_iff (a : 0 < e.voiceA.load) (b : ∀ v, e.voiceB = some v → 0 < v.load) :
    s.voiceOn e φ cs ≠ none ↔ ∃ d, 0 < s.loadAt e φ d cs := by
  unfold loadAt
  cases h : s.voiceOn e φ cs with
  | none => simp [voiceLoad]
  | some v =>
    have load : 0 < v.load := by
      simp only [voiceOn, Option.ite_none_right_eq_some, Option.some.injEq] at h
      exact h.2 ▸ Entry.voiceInUse_load a b _
    exact iff_of_true (by simp) ⟨v.channel, by simpa [voiceLoad] using load⟩

/-- An ON step fits when every channel has room for the entry's load there (R128; log 12). -/
theorem stepFits_iff (cs : Fin 120) : s.stepFits e φ cs.val = true ↔ (s.voiceOn e φ cs.val ≠ none →
    ∀ c, (s.arb.profile.get c).get cs + s.loadAt e φ c cs.val ≤ s.capacity c cs.val) := by
  unfold stepFits loadAt
  cases s.voiceOn e φ cs.val with
  | none => simp
  | some v => simp [profileAt]

/-- A candidate fits when the entry's load fits at each of its ON steps, on every channel (R128). -/
theorem fits_iff (a : 0 < e.voiceA.load) (b : ∀ v, e.voiceB = some v → 0 < v.load) : s.fits e φ = true ↔
    ∀ (c : Channel) (cs : Fin 120), (∃ d, 0 < s.loadAt e φ d cs.val) →
      (s.arb.profile.get c).get cs + s.loadAt e φ c cs.val ≤ s.capacity c cs.val := by
  have steps : s.fits e φ = true ↔ ∀ cs : Fin 120, s.stepFits e φ cs.val = true := by
    simp only [fits, List.all_eq_true, List.mem_range]
    exact ⟨fun h cs => h cs.val cs.isLt, fun h cs lt => h ⟨cs, lt⟩⟩
  simp only [steps, stepFits_iff, voiceOn_ne_none_iff s φ _ a b]
  exact ⟨fun h c cs on => h cs on c, fun h cs on c => h c cs on⟩

end State

/-- A search through the values of a function at 0, 1, 2, … finds the first that passes. -/
theorem find_map_range_eq_some {α : Type} (p : α → Bool) (f : Nat → α) (n : Nat) (a : α) :
    ((List.range n).map f).find? p = some a ↔
      ∃ k, k < n ∧ a = f k ∧ p a = true ∧ ∀ j, j < k → ¬p (f j) = true ∨ f j = a := by
  simp only [List.find?_map, Option.map_eq_some_iff, List.find?_range_eq_some, List.mem_range, Function.comp_apply]
  constructor
  · rintro ⟨k, ⟨passes, lt, before⟩, rfl⟩
    exact ⟨k, lt, rfl, passes, fun j hj => .inl (by simpa using before j hj)⟩
  · rintro ⟨k, lt, rfl, passes, before⟩
    have found : ∃ j, p (f j) = true := ⟨k, passes⟩
    have first : Nat.find found ≤ k := Nat.find_min' found passes
    refine ⟨Nat.find found, ⟨Nat.find_spec found, by omega, fun j hj => by simpa using Nat.find_min found hj⟩, ?_⟩
    rcases first.lt_or_eq with h | h
    · exact (before _ h).resolve_left (not_not.mpr (Nat.find_spec found))
    · rw [h]

end Sys2Proof.Machine

open Sys2Proof Sys2Proof.Machine

/-- Settles O49: the capacity by fault and by what the timebase knows, and the search along the candidates. -/
theorem admissionTakesTheFirstFittingOffset : Obligations.AdmissionTakesTheFirstFittingOffset := by
  intro e s
  refine ⟨fun c cs _ => ⟨s.capacity_faulted c cs, fun clear follower lost => ?_, fun clear sees => ?_⟩, ?_⟩
  · rw [s.capacity_blind c cs clear (s.timebase.blind_iff.mpr ⟨follower, lost⟩)]
    exact ⟨smallest_le _, smallest_attained _⟩
  · have notBlind : s.timebase.blind = false := by
      rw [← Bool.not_eq_true, Timebase.blind_iff]
      rintro ⟨follower, h | h⟩ <;> simp [follower, h] at sees
    exact ⟨windowOf cs, windowOf_val cs, s.capacity_window c cs clear notBlind⟩
  · intro fits offset a b
    have fit : ∀ φ, fits φ ↔ s.fits e φ = true := fun φ => (s.fits_iff φ a b).symm
    simp only [fit]
    refine ⟨fun φ => find_map_range_eq_some (s.fits e) offset _ φ, ?_⟩
    show ((List.range _).map offset).find? (s.fits e) = none ↔ _
    simp
end

section
/-! What leaves the timebase alone, or at least its count of the scans (R31): the work of the call blocks, the commands of
the host, and the link at the end of an event. -/

namespace Sys2Proof.Machine

theorem State.timebase_of_given {s t : State} (h : t.given = s.given) : t.timebase = s.timebase :=
  congrArg (·.2.2.2.2.2.1) h

theorem State.due_of_given {s t : State} (h : t.given = s.given) : t.due = s.due := congrArg (·.2.2.2.2.2.2.1) h

theorem Kept.timebase {s t : State} (h : Kept s t) : t.timebase = s.timebase := State.timebase_of_given h.given

/-- What the timebase holds of the scans: the scan count, the lines scanned, and whether a step event is due (R31). -/
def Timebase.scans (t : Timebase) : Nat × BitVec 16 × Bool := (t.scanCount, t.scanned, t.stepDue)

@[simp] theorem Timebase.withRole_scans (t : Timebase) (r : Role) : (t.withRole r).scans = t.scans := by
  cases r <;> rfl

/-- From `s` to `t` the timebase counts the scans as before. -/
def KeepsScans (s t : State) : Prop := t.timebase.scans = s.timebase.scans

namespace KeepsScans

variable {s t u : State}

theorem refl (s : State) : KeepsScans s s := rfl

theorem trans (h : KeepsScans s t) (k : KeepsScans t u) : KeepsScans s u := Eq.trans k h

theorem of_timebase (h : t.timebase = s.timebase) : KeepsScans s t := congrArg Timebase.scans h

theorem of_kept (h : Kept s t) : KeepsScans s t := of_timebase h.timebase

theorem forLines (f : LineNo → State → State × Status) (h : ∀ l u, KeepsScans u (f l u).1) (ls : List LineNo)
    (s : State) : KeepsScans s (Machine.forLines f ls s).1 := forLines_relates refl trans h ls s

theorem lineOptionsAt (f : WriteForm) (v : BitVec 4) (l : LineNo) (s : State) :
    KeepsScans s (Machine.lineOptionsAt f v l s).1 :=
  of_timebase (State.timebase_of_given (Aside.lineOptionsAt f v l s).given)

theorem lineLockAt (l : LineNo) (s : State) : KeepsScans s (Machine.lineLockAt l s).1 := by
  unfold Machine.lineLockAt
  split <;> exact refl s

theorem carryTimebaseSet (p : List Byte) : KeepsScans s (s.carryTimebaseSet p).1 := by
  unfold State.carryTimebaseSet
  dsimp only
  split
  · exact refl s
  · exact trans (t := s.updTimebase fun t => t.withRole _) (Timebase.withRole_scans _ _) (of_kept Kept.markSync)

/-- A change of role carries the count of the scans on, and no other command touches the timebase (R32). -/
theorem carry (c : HostCmd) (p : List Byte) : KeepsScans s (s.carry c p).1 := by
  cases c <;> simp only [State.carry]
  case timebaseSet => exact carryTimebaseSet p
  case lineOptions => exact forLines _ (fun l u => lineOptionsAt _ _ l u) _ _
  case lineLock => exact forLines _ (fun l u => lineLockAt l u) _ _
  case alarmRing => exact forLines _ (fun l u => of_kept (Kept.alarmRingAt _ l u)) _ _
  case alarmStop => exact forLines _ (fun l u => of_kept (Kept.alarmStopAt l u)) _ _
  case ringParty => exact of_kept (Kept.carryRingParty p)
  case ringCancel => exact of_kept (Kept.carryRingCancel p)
  case connect => exact of_kept (Kept.carryConnect p)
  case reject => exact of_kept (Kept.carryReject p)
  case disconnect => exact of_kept (Kept.carryDisconnect p)
  case lineRelease => exact of_kept (Kept.carryLineRelease p)
  case testAccess => exact of_kept (Kept.carryTestAccess p)
  case testRelease => exact of_kept (Kept.carryTestRelease p)
  case calibrate => exact of_kept (Kept.carryCalibrate p)
  case calibrateCancel => exact of_kept (Kept.carryCalibrateCancel p)
  case arbiterRead | partyWrite | alarmIdentity | planCommit | planDiscard | lineLevels | lineLoads | numberingSet
      | cadencePut | cadenceStore | cadenceRead | cadenceClear =>
    simp only [State.carryArbiterRead, State.carryPartyWrite, State.carryAlarmIdentity, State.carryPlanCommit,
      State.carryPlanDiscard, State.carryLineLevels, State.carryLineLoads, State.carryNumberingSet,
      State.carryCadencePut, State.carryCadenceStore, State.carryCadenceRead, State.carryCadenceClear]
    repeat' split
    all_goals exact refl s
  all_goals exact refl s

/-! ### The link -/

theorem answerFrame (f : Frame) : KeepsScans s (s.answerFrame f).1 := by
  unfold State.answerFrame State.judge
  split
  · exact refl s
  · dsimp only
    split
    · split
      · exact refl s
      · exact carry _ _
    · exact refl s

theorem dispatch (n : Nat) (s : State) : KeepsScans s (s.dispatch n) := by
  induction n generalizing s with
  | zero => exact refl s
  | succ n ih =>
    unfold State.dispatch
    split
    · exact refl s
    · split
      · exact (answerFrame (s := s.updLink _) _).trans (ih _)
      · exact refl s

theorem transmit : KeepsScans s s.transmit := by
  unfold State.transmit State.choose
  split
  · exact refl s
  · split
    · exact refl s
    · split
      · exact refl s
      · unfold State.sendReport State.chosen
        repeat' split
        all_goals exact refl s

/-- What ends an event leaves the count of the scans alone: the sender's frames carry no scan (R179). -/
theorem settleLink : KeepsScans s s.settleLink := (dispatch _ _).trans (transmit.trans (dispatch _ _))

end KeepsScans

end Sys2Proof.Machine
end

section
/-! The scans and the step event as the timebase takes them (R31 to R37). -/

namespace Sys2Proof.Machine

/-! ### A scan -/

theorem lineBit_getLsbD (l m : LineNo) : (lineBit l).getLsbD m.val = true ↔ m = l := by
  simp [lineBit, Fin.ext_iff]
  omega

namespace Timebase

variable (t : Timebase) (l : LineNo)

theorem opensPeriod_iff : t.opensPeriod l = true ↔ t.scanned = 0 ∨ t.scanned.getLsbD l.val = true := by
  simp [opensPeriod, hasScanned]

/-- The lines scanned in the period are those before in it, and the one just scanned (R31; log 3). -/
theorem scan_scanned (m : LineNo) : (t.scan l).scanned.getLsbD m.val = true ↔
    m = l ∨ (t.opensPeriod l = false ∧ t.scanned.getLsbD m.val = true) := by
  cases opens : t.opensPeriod l with
  | true =>
    have first : (t.scan l).scanned = lineBit l := by
      by_cases count : t.scanCount < 9
      · rw [scan_counts t l opens count]
      · rw [scan_tenth t l opens count]
    rw [first, lineBit_getLsbD]
    simp
  | false =>
    rw [scan_joins t l opens, BitVec.getLsbD_or, Bool.or_eq_true, lineBit_getLsbD]
    simp [or_comm]

end Timebase

namespace State

variable {s t : State} {l : LineNo}

@[simp] theorem disableLine_timebase : (s.disableLine l).timebase = s.timebase := (Kept.disableLine l).timebase

/-- A scan moves the timebase as `Timebase.scan` says, whatever it finds (R31, R41). -/
theorem scanLine_timebase (l : LineNo) (r : Reading) (s : State) : (s.scanLine l r).timebase = s.timebase.scan l := by
  unfold scanLine
  dsimp only
  split
  · split
    · exact (Kept.fittedScan l r).timebase
    · rw [fittedLost_eq, disableLine_timebase]
      exact timebase_of_given (circuitLost_given l _)
  · exact timebase_of_given (unfittedScan_given _)

/-! ### The works of a step event -/

/-- A work leaves the tables, the timebase and the other works that are due alone. -/
theorem doWork_given (w : Work) (s : State) : (s.doWork w).given = s.given := by
  cases w with
  | activation l =>
    show (s.activation l).given = s.given
    unfold activation activate
    split
    · exact (Kept.markLine (s := s.updLine l _) _ _ _).given
    · rfl
  | alarmCount l => exact (Kept.alarmCountStep l).given
  | calWait l => exact (Kept.calWaitCount l).given
  | arbiter => exact ((Kept.boundary (some Boundary.fresh)).trans Kept.runBoundary).given
  | callTimer l => exact (Kept.callTimerStep l).given
  | pendingAlarm l => exact (Kept.pendingAlarmStep l).given
  | ring l => exact (Kept.ringStep l).given

theorem foldl_doWork_given (ws : List Work) (s : State) :
    (ws.foldl (fun (u : State) w => u.doWork w) s).given = s.given := by
  induction ws generalizing s with
  | nil => rfl
  | cons w ws ih => exact (ih _).trans (doWork_given w s)

theorem foldl_hold_timebase (ws : List Work) (s : State) :
    (ws.foldl (fun (u : State) w => u.hold w) s).timebase = s.timebase := by
  induction ws generalizing s with
  | nil => rfl
  | cons w ws ih => exact (ih _).trans (by cases w <;> rfl)

/-- The works of the step event before leave the tables and the timebase alone, and none of them due. -/
theorem settleDue_given (s : State) : s.settleDue.given = State.given { s with due := [] } :=
  Kept.runBoundary.given.trans (foldl_doWork_given s.due _)

theorem settleDue_timebase (s : State) : s.settleDue.timebase = s.timebase :=
  timebase_of_given (s := { s with due := [] }) (t := s.settleDue) s.settleDue_given

theorem takeWorks_timebase (first held : List Work) (b : Bool) (s : State) :
    (s.takeWorks first held b).timebase = s.timebase :=
  (timebase_of_given (foldl_doWork_given _ _)).trans (foldl_hold_timebase _ _)

theorem advanceTimebase_timebase (s : State) : s.advanceTimebase.timebase = s.timebase.advance.1 := by
  unfold advanceTimebase
  dsimp only
  split
  · rfl
  · rw [markSync_timebase]
    rfl

/-- A step event moves the timebase once (R31). -/
theorem stepTime_timebase (first held : List Work) (s : State) :
    (s.stepTime first held).timebase = s.timebase.advance.1 := by
  unfold stepTime
  rw [takeWorks_timebase, advanceTimebase_timebase, settleDue_timebase]

end State

theorem exec_stepEvent {s : State} (first held : List Work) (due : s.timebase.stepDue = true) :
    exec (.stepEvent first held) s = .next (s.stepTime first held).settleLink := if_pos due

/-! ### The move of the position -/

namespace Timebase

variable (t : Timebase)

/-- The ordinary advance: to 0 with the other parity at the end of the frame, else by 1 (R31). -/
theorem free_fst : t.free.1 = { t with
    position := if t.position = 59 then 0 else t.position + 1
    parity := if t.position = 59 then !t.parity else t.parity } := by
  unfold free
  split <;> simp [*]

theorem free_snd : t.free.2 = decide (t.position = 59) := by
  unfold free
  split <;> simp [*]

/-- From `t` to `u` at most the position, the parity and what a FOLLOWER holds have changed. -/
def MovedTo (t u : Timebase) : Prop := u = { t with
    position := u.position, parity := u.parity, follower := u.follower, remembered := u.remembered
    windowOpen := u.windowOpen }

theorem MovedTo.free {t u : Timebase} (h : t.MovedTo u) : t.MovedTo u.free.1 := by
  rw [free_fst, h]
  rfl

theorem acquire_moved : t.MovedTo t.acquire.1 := by
  unfold acquire
  dsimp only
  split
  · exact MovedTo.free rfl
  · split
    · exact MovedTo.free rfl
    · split
      · exact rfl
      · exact MovedTo.free rfl

theorem track_moved (missed : Follower) : t.MovedTo (t.track missed).1 := by
  unfold track
  dsimp only
  split
  · split
    · exact rfl
    · exact MovedTo.free rfl
  · split
    · split <;> exact MovedTo.free rfl
    · split
      · split
        · exact rfl
        · exact MovedTo.free rfl
      · exact MovedTo.free rfl

theorem lost_moved : t.MovedTo t.lost.1 := by
  unfold lost
  split <;> exact MovedTo.free rfl

/-- A step event's move touches the position, the parity and what a FOLLOWER holds, no more. -/
theorem move_moved : t.MovedTo t.move.1 := by
  unfold move
  split
  · exact acquire_moved t
  · exact track_moved t _
  · exact track_moved t _
  · exact lost_moved t
  all_goals exact MovedTo.free rfl

theorem move_elsewhere (h : t.role ≠ .follower) : t.move = t.free := by
  unfold move
  split <;> simp_all

section

variable {t} (follower : t.role = .follower)

include follower

theorem move_acquiring (h : t.follower = some .acquiring) : t.move = t.acquire := by simp [move, follower, h]

theorem move_locked (h : t.follower = some .locked) : t.move = t.track .holdover := by simp [move, follower, h]

theorem move_holdover (h : t.follower = some .holdover) : t.move = t.track .lost := by simp [move, follower, h]

theorem move_lost (h : t.follower = some .lost) : t.move = t.lost := by simp [move, follower, h]

end

/-! ### The follower states -/

section

variable {t}

/-- ACQUIRING without a pulse: the spacing count rises while a pulse is remembered (R34). -/
theorem acquire_waits (h : t.latch = false) : t.acquire = { t with remembered := t.remembered.map (· + 1) }.free := by
  simp [acquire, h]

/-- ACQUIRING with a second pulse at a frame's spacing: LOCKED at a realignment (R34). -/
theorem acquire_locks (h : t.latch = true) {n : Nat} (pulse : t.remembered = some n) (lo : 59 ≤ n + 1)
    (hi : n + 1 ≤ 61) : t.acquire = { t with follower := some .locked, remembered := none }.realign := by
  have near : 59 ≤ n + 1 ∧ n + 1 ≤ 61 := ⟨lo, hi⟩
  simp only [acquire, h, pulse, Option.map_some, if_pos near]
  rfl

/-- ACQUIRING with a first pulse, or one at another spacing: it is the pulse remembered (R34). -/
theorem acquire_restarts (h : t.latch = true) (away : ∀ n, t.remembered = some n → n + 1 < 59 ∨ 61 < n + 1) :
    t.acquire = { t with remembered := some 0 }.free := by
  cases pulse : t.remembered with
  | none => simp [acquire, h, pulse]
  | some n =>
    have far : ¬(59 ≤ n + 1 ∧ n + 1 ≤ 61) := by have := away n pulse; omega
    simp only [acquire, h, pulse, Option.map_some, if_neg far]
    rfl

variable {missed : Follower}

/-- A pulse one step early realigns (R35). -/
theorem track_early (p : t.position = 58) (h : t.latch = true) :
    t.track missed = { t with follower := some .locked, windowOpen := false }.realign := by simp [track, p, h]

/-- A pulse at the boundary keeps LOCKED (R35). -/
theorem track_onTime (p : t.position = 59) (h : t.latch = true) :
    t.track missed = { t with follower := some .locked, windowOpen := false }.free := by simp [track, p, h]

/-- A boundary without its pulse opens the window's last step (R35; log 20). -/
theorem track_opens (p : t.position = 59) (h : t.latch = false) :
    t.track missed = { t with windowOpen := true }.free := by simp [track, p, h]

/-- A pulse one step late holds the position (R35). -/
theorem track_late (p : t.position = 0) (isOpen : t.windowOpen = true) (h : t.latch = true) :
    t.track missed = ({ t with follower := some .locked, windowOpen := false }, false) := by simp [track, p, isOpen, h]

/-- A window that closes unmet (R35, R36). -/
theorem track_unmet (p : t.position = 0) (isOpen : t.windowOpen = true) (h : t.latch = false) :
    t.track missed = { t with follower := some missed, windowOpen := false }.free := by simp [track, p, isOpen, h]

/-- Outside the window the position runs on (R35). -/
theorem track_between (notEarly : ¬(t.position = 58 ∧ t.latch = true)) (notEnd : t.position ≠ 59)
    (closed : ¬(t.position = 0 ∧ t.windowOpen = true)) : t.track missed = t.free := by
  unfold track
  by_cases p : t.position = 58
  · have noPulse : ¬t.latch = true := fun h => notEarly ⟨p, h⟩
    simp only [if_pos p, if_neg noPulse]
  · simp only [if_neg p, if_neg notEnd, if_neg closed]

theorem lost_found (h : t.latch = true) :
    t.lost = { t with follower := some .acquiring, remembered := some 0 }.free := if_pos h

theorem lost_waits (h : t.latch = false) : t.lost = t.free := if_neg (by simp [h])

end

theorem advance_fst : t.advance.1 = t.move.1.stepped t.move.2 := rfl

/-- A step event with an ordinary advance of the position. -/
theorem advance_of_free {t u : Timebase} (h : t.move = u.free) (position : u.position = t.position)
    (parity : u.parity = t.parity) :
    (if t.position = 59 then t.advance.1.position = 0 ∧ t.advance.1.parity = !t.parity
      else t.advance.1.position = t.position + 1 ∧ t.advance.1.parity = t.parity)
      ∧ t.advance.1.follower = u.follower ∧ t.advance.1.remembered = u.remembered
      ∧ t.advance.1.windowOpen = u.windowOpen := by
  rw [advance_fst, h, free_fst, position, parity]
  refine ⟨?_, rfl, rfl, rfl⟩
  by_cases last : t.position = 59 <;> simp [last, stepped]

/-- A step event with a realignment. -/
theorem advance_of_realign {t u : Timebase} (h : t.move = u.realign) (parity : u.parity = t.parity) :
    (t.advance.1.position = 0 ∧ t.advance.1.parity = !t.parity)
      ∧ t.advance.1.follower = u.follower ∧ t.advance.1.remembered = u.remembered
      ∧ t.advance.1.windowOpen = u.windowOpen := by
  rw [advance_fst, h, ← parity]
  exact ⟨⟨rfl, rfl⟩, rfl, rfl, rfl⟩

/-- A step event that holds the position. -/
theorem advance_of_held {t u : Timebase} (h : t.move = (u, false)) :
    t.advance.1.position = u.position ∧ t.advance.1.parity = u.parity ∧ t.advance.1.follower = u.follower
      ∧ t.advance.1.windowOpen = u.windowOpen := by
  rw [advance_fst, h]
  exact ⟨rfl, rfl, rfl, rfl⟩

/-- A step event at which the window closes unmet: the position runs on to 1 (R35, R36). -/
theorem advance_of_unmet {t : Timebase} {missed : Follower} (move : t.move = t.track missed) (p : t.position = 0)
    (window : t.windowOpen = true) (silent : t.latch = false) :
    t.advance.1.position = 1 ∧ t.advance.1.follower = some missed := by
  obtain ⟨runs, follower, _⟩ := advance_of_free (move.trans (track_unmet p window silent)) rfl rfl
  rw [p] at runs
  exact ⟨runs.1, follower⟩

/-- A MASTER drives its pulse at a frame boundary, and no other role does (R32, R33). -/
theorem advance_pulseOut : t.advance.1.pulseOut = true ↔ t.role = .master ∧ t.advance.1.parity ≠ t.parity := by
  have role : t.move.1.role = t.role := by rw [move_moved]
  have pulse : t.advance.1.pulseOut = (t.role == .master && t.move.2) := by rw [← role]; rfl
  rw [pulse, Bool.and_eq_true, beq_iff_eq]
  refine and_congr_right fun master => ?_
  have parity : t.advance.1.parity = t.move.1.parity := rfl
  rw [parity, move_elsewhere t (by simp [master]), free_fst, free_snd]
  by_cases h : t.position = 59 <;> simp [h]

/-- A pulse on FSYNC sets the latch of a FOLLOWER (R33). -/
theorem pulse_of_follower {t : Timebase} (h : t.role = .follower) : t.pulse = { t with latch := true } := by
  simp [pulse, h]

/-- The other roles disregard the pulse (R32). -/
theorem pulse_elsewhere {t : Timebase} (h : t.role ≠ .follower) : t.pulse = t := by
  unfold pulse
  split
  · contradiction
  · rfl
  · rfl

theorem windowUnmet_iff : t.windowUnmet = true ↔ t.role = .follower
    ∧ (t.follower = some .locked ∨ t.follower = some .holdover) ∧ t.position = 0 ∧ t.windowOpen = true
    ∧ t.latch = false := by
  simp [windowUnmet, and_assoc]

end Timebase

/-! ### A step event that is owed -/

namespace State

variable {s : State} {l : LineNo}

/-- The step event that is owed starts the count of the scans again (R31). -/
theorem takeOwed_scans (h : ¬s.paced l) : (s.takeOwed l).timebase.scans = (0, s.timebase.scanned, false) := by
  have owed : s.timebase.owes l = true := (Timebase.owes_iff _ _).mpr
    ⟨by by_contra e; exact h (.inl (by simpa using e)), by by_contra e; exact h (.inr (by simpa using e))⟩
  have settled : (s.takeOwed l).timebase.scans = (s.stepTime [] []).timebase.scans := by
    unfold takeOwed
    rw [if_pos owed]
    exact KeepsScans.settleLink
  rw [settled, stepTime_timebase, Timebase.advance_fst, Timebase.move_moved]
  rfl

theorem takeOwed_paced (h : ¬s.paced l) : (s.takeOwed l).paced l := .inl (congrArg (·.2.2) (takeOwed_scans h))

/-- After the step event that is owed the scan opens a period, so that it does change the state. -/
theorem takeOwed_scan_counts (h : ¬s.paced l) (r : Reading) :
    finish ((s.takeOwed l).scanLine l r) ≠ .next (s.takeOwed l) := by
  have scans := takeOwed_scans h
  have scanned : s.timebase.scanned.getLsbD l.val = true := by
    by_contra e
    exact h (.inr (by simpa using e))
  simp only [Timebase.scans, Prod.mk.injEq] at scans
  have opens : (s.takeOwed l).timebase.opensPeriod l = true :=
    (Timebase.opensPeriod_iff _ _).mpr (.inr (by rw [scans.2.1, scanned]))
  intro same
  have settled : KeepsScans ((s.takeOwed l).scanLine l r) (s.takeOwed l) := by
    have := KeepsScans.settleLink (s := (s.takeOwed l).scanLine l r)
    rwa [Host.Outcome.next.inj same] at this
  have count := congrArg (·.1) settled
  rw [scanLine_timebase, Timebase.scan_counts _ _ opens (by rw [scans.1]; omega)] at count
  simp [Timebase.scans] at count

/-- A scan named by what it finds is judged after the step event that is owed (log 3). -/
theorem scanning_of_owed (finds : State → Bool) (r : Reading) (h : ¬s.paced l) :
    (scanning finds l r (s.takeOwed l) ≠ .next (s.takeOwed l) →
        scanning finds l r s = scanning finds l r (s.takeOwed l))
      ∧ (scanning finds l r (s.takeOwed l) = .next (s.takeOwed l) → scanning finds l r s = .next s) := by
  rw [scanning_of_paced finds r (takeOwed_paced h)]
  unfold scanning
  by_cases found : finds (s.takeOwed l) = true
  · simp only [if_pos found]
    exact ⟨fun _ => trivial, fun same => absurd same (takeOwed_scan_counts h r)⟩
  · simp only [if_neg found]
    exact ⟨fun ne => absurd rfl ne, fun _ => trivial⟩

end State

end Sys2Proof.Machine

open Sys2Proof Sys2Proof.Machine

/-- Settles O41: the timebase's table row by row, and what the scans and the pulse do to it. -/
theorem timebaseFollowsItsTable : Obligations.TimebaseFollowsItsTable := by
  refine ⟨fun l r s paced => ⟨s.scanLine l r, execScan_of_paced r paced, ?_⟩, fun first held s notDue => ?_,
    fun l r s owed => ⟨s.takeOwed l, State.takeOwed_of_owed owed, State.takeOwed_paced owed, ?_, ?_⟩,
    fun first held s due => ⟨s.stepTime first held, exec_stepEvent first held due, ?_⟩, fun s follower => ?_,
    fun s other => ?_, fun first held s due follower state position window latch => ?_⟩
  · rw [State.scanLine_timebase]
    generalize s.timebase = a
    have opens := a.opensPeriod_iff l
    refine ⟨a.scan_moves l, fun h count => ?_, fun h count => ?_, fun h => ?_, fun m => ?_⟩
    · rw [a.scan_counts l (opens.mpr h) count]
      exact ⟨rfl, rfl⟩
    · rw [a.scan_tenth l (opens.mpr h) (Nat.not_lt.mpr count)]
      exact ⟨rfl, rfl⟩
    · rw [a.scan_joins l (by rwa [← Bool.not_eq_true, opens])]
      exact ⟨rfl, rfl⟩
    · rw [a.scan_scanned l m, ← Bool.not_eq_true, opens]
  · exact ⟨if_neg (by simp [notDue]), if_neg (by simp [notDue])⟩
  · show finish _ = finish _
    rw [State.takeOwed_of_paced (State.takeOwed_paced owed)]
  · simp only [List.forall_mem_cons, exec, execOffHook, execOnHook, execDigitComplete, execPartyTestResult,
      execTrackingWindowClose, execRingTrip, execLeakComplete]
    refine ⟨?_, ?_, ?_, ?_, ?_, ?_, ?_, List.forall_mem_nil _⟩
    all_goals exact State.scanning_of_owed _ r owed
  · rw [State.stepTime_timebase]
    intro a b free realigned f tracked
    have frame : b = a.move.1.stepped a.move.2 := rfl
    rw [a.move_moved] at frame
    have tracks : ∀ {missed}, a.move = a.track missed → tracked missed := fun {missed} move => by
      refine ⟨fun p pulse => ?_, fun p pulse => ?_, fun p silent => ?_, fun p window pulse => ?_, fun p window silent => ?_,
        fun early notEnd closed => ?_⟩
      · obtain ⟨realigns, follower, _, window⟩ := Timebase.advance_of_realign (move.trans (Timebase.track_early p pulse)) rfl
        exact ⟨realigns, follower, window⟩
      · obtain ⟨runs, follower, _, window⟩ := Timebase.advance_of_free (move.trans (Timebase.track_onTime p pulse)) rfl rfl
        exact ⟨runs, follower, window⟩
      · obtain ⟨runs, follower, _, window⟩ := Timebase.advance_of_free (move.trans (Timebase.track_opens p silent)) rfl rfl
        exact ⟨runs, follower, window⟩
      · obtain ⟨position, parity, follower, window⟩ :=
          Timebase.advance_of_held (move.trans (Timebase.track_late p window pulse))
        exact ⟨position.trans p, parity, follower, window⟩
      · obtain ⟨runs, follower, _, window⟩ :=
          Timebase.advance_of_free (move.trans (Timebase.track_unmet p window silent)) rfl rfl
        exact ⟨runs, follower, window⟩
      · obtain ⟨runs, follower, _, window⟩ :=
          Timebase.advance_of_free (move.trans (Timebase.track_between early notEnd closed)) rfl rfl
        exact ⟨runs, follower, window⟩
    refine ⟨by rw [frame]; rfl, by rw [frame]; rfl, by rw [frame]; rfl, by rw [frame]; rfl, by rw [frame]; rfl,
      by rw [frame]; rfl, fun other => ?_, fun ⟨role, state⟩ silent => ?_, fun ⟨role, state⟩ pulse n remembered lo hi => ?_,
      fun ⟨role, state⟩ pulse away => ?_, fun ⟨role, state⟩ => tracks (Timebase.move_locked role state),
      fun ⟨role, state⟩ => tracks (Timebase.move_holdover role state), fun ⟨role, state⟩ pulse => ?_,
      fun ⟨role, state⟩ silent => ?_, a.advance_pulseOut⟩
    · obtain ⟨runs, follower, remembered, _⟩ := Timebase.advance_of_free (a.move_elsewhere other) rfl rfl
      exact ⟨runs, follower, remembered⟩
    · obtain ⟨runs, follower, remembered, _⟩ :=
        Timebase.advance_of_free ((Timebase.move_acquiring role state).trans (Timebase.acquire_waits silent)) rfl rfl
      exact ⟨runs, follower.trans state, remembered⟩
    · obtain ⟨realigns, follower, remembered, _⟩ := Timebase.advance_of_realign
        ((Timebase.move_acquiring role state).trans (Timebase.acquire_locks pulse remembered lo hi)) rfl
      exact ⟨realigns, follower, remembered⟩
    · obtain ⟨runs, follower, remembered, _⟩ :=
        Timebase.advance_of_free ((Timebase.move_acquiring role state).trans (Timebase.acquire_restarts pulse away)) rfl rfl
      exact ⟨runs, follower.trans state, remembered⟩
    · obtain ⟨runs, follower, remembered, _⟩ :=
        Timebase.advance_of_free ((Timebase.move_lost role state).trans (Timebase.lost_found pulse)) rfl rfl
      exact ⟨runs, follower, remembered⟩
    · obtain ⟨runs, follower, _, _⟩ :=
        Timebase.advance_of_free ((Timebase.move_lost role state).trans (Timebase.lost_waits silent)) rfl rfl
      exact ⟨runs, follower.trans state⟩
  · show finish _ = _
    rw [State.updTimebase, Timebase.pulse_of_follower follower]
    rfl
  · show finish _ = _
    rw [State.updTimebase, Timebase.pulse_elsewhere other]
    rfl
  · have unmet := s.timebase.windowUnmet_iff.mpr ⟨follower, state, position, window, latch⟩
    have step : exec (.followerWindowUnmet first held) s = .next (s.stepTime first held).settleLink :=
      if_pos (by rw [due, unmet]; rfl)
    refine ⟨_, step, and_assoc.mp ⟨?_, step.trans (exec_stepEvent first held due).symm⟩⟩
    rw [State.stepTime_timebase]
    rcases state with locked | holdover
    · rw [if_pos locked]
      exact Timebase.advance_of_unmet (Timebase.move_locked follower locked) position window latch
    · rw [if_neg (by simp [holdover])]
      exact Timebase.advance_of_unmet (Timebase.move_holdover follower holdover) position window latch
end

section
/-! The works of a step event (R31): those still held from the step event before, and which there are, which are held and
in which order the others are done (log 6, 7). -/

namespace Sys2Proof.Machine

/-- A line is in WAIT by the phase of its run (R162). -/
theorem Line.inWait_iff (x : Line) : x.inWait = true ↔ ∃ r, x.run = some r ∧ r.phase = .wait := by
  unfold inWait
  cases x.run <;> simp

/-! ### How far a boundary's work has gone -/

/-- The part of a boundary's work that follows a part (R132). -/
def Stage.after : Stage → Option Stage
  | .eviction => some .warmUp
  | .warmUp => some .queueWalk
  | .queueWalk => some .waitCounting
  | .waitCounting => some .standbyCounting
  | .standbyCounting => none

theorem Stage.rank_after {g h : Stage} (after : g.after = some h) : h.rank = g.rank + 1 := by
  cases g <;> cases after <;> rfl

namespace State

/-- The next part of the boundary's work that is held, if one is. -/
def nextStage (s : State) : Option Stage := s.boundary.map (·.next)

/-- A line's leaving the queue moves no boundary's work on. -/
@[simp] theorem nextStage_leftQueue (l : LineNo) (s : State) : (s.leftQueue l).nextStage = s.nextStage := by
  unfold nextStage
  rw [leftQueue_boundary, Option.map_map]
  rfl

@[simp] theorem nextStage_removeEntry (l : LineNo) (s : State) : (s.removeEntry l).nextStage = s.nextStage := by
  unfold removeEntry
  split
  · rfl
  · exact nextStage_leftQueue l _

theorem nextStage_of_boundary {s t : State} (h : t.boundary = s.boundary) : t.nextStage = s.nextStage :=
  congrArg (Option.map _) h

@[simp] theorem nextStage_enter (l : LineNo) (new : CallState) (s : State) : (s.enter l new).nextStage = s.nextStage := by
  unfold enter
  dsimp only
  split
  · rfl
  · exact nextStage_of_boundary (markLine_boundary _ _ _ _)

@[simp] theorem nextStage_failRun (l : LineNo) (c : CalCause) (s : State) : (s.failRun l c).nextStage = s.nextStage := by
  unfold failRun
  split
  · rfl
  · exact (nextStage_of_boundary (markLine_boundary _ _ _ _)).trans (nextStage_removeEntry l s)

@[simp] theorem nextStage_failToIdle (l : LineNo) (c : CalCause) (s : State) :
    (s.failToIdle l c).nextStage = s.nextStage := by
  unfold failToIdle
  split
  · rfl
  · rw [nextStage_enter, nextStage_failRun]

/-- Operations that move no boundary's work on, one after another. -/
theorem nextStage_foldl (f : State → LineNo → State) (h : ∀ u l, (f u l).nextStage = u.nextStage) (ls : List LineNo)
    (s : State) : (ls.foldl f s).nextStage = s.nextStage := by
  induction ls generalizing s with
  | nil => rfl
  | cons l ls ih => exact (ih _).trans (h s l)

theorem nextStage_withdraw (l : LineNo) (s : State) : (s.withdraw l).nextStage = s.nextStage := by
  unfold withdraw
  split <;> rfl

theorem nextStage_markSuspended (c : SuspendCause) (l : LineNo) (s : State) :
    (s.markSuspended c l).nextStage = s.nextStage := by
  unfold markSuspended
  split
  · rfl
  · exact nextStage_of_boundary (markRing_boundary _ _ _ _ _ _ _)

theorem nextStage_suspensionNotice (l : LineNo) (s : State) : (s.suspensionNotice l).nextStage = s.nextStage := by
  unfold suspensionNotice
  split
  · rfl
  · split
    · exact nextStage_failToIdle _ _ _
    · rfl

theorem nextStage_suspendMany (ls : List LineNo) (c : SuspendCause) (s : State) :
    (s.suspendMany ls c).nextStage = s.nextStage := by
  unfold suspendMany
  dsimp only
  rw [nextStage_foldl _ (fun u l => nextStage_suspensionNotice l u),
    nextStage_foldl _ (fun u l => nextStage_markSuspended c l u)]
  exact nextStage_foldl _ (fun u l => nextStage_withdraw l u) ls s

theorem nextStage_warmUp (s : State) : s.warmUp.nextStage = s.nextStage := by
  unfold warmUp
  split
  · rfl
  · rfl
  · split
    · exact nextStage_of_boundary (markDevice_boundary _ _ _)
    · rfl

theorem nextStage_placeEntry (l : LineNo) (e : Entry) (φ : Nat) (s : State) :
    (s.placeEntry l e φ).nextStage = s.nextStage := by
  unfold nextStage
  rw [placeEntry_boundary, Option.map_map]
  rfl

theorem nextStage_walk (ls : List LineNo) (s : State) : (s.walk ls).nextStage = s.nextStage := by
  induction ls generalizing s with
  | nil => rfl
  | cons l ls ih =>
    unfold walk
    split
    · exact ih s
    · split
      · exact ih s
      · split
        · rfl
        · rw [ih, nextStage_placeEntry]

theorem nextStage_walkQueue (s : State) : s.walkQueue.nextStage = s.nextStage := by
  unfold walkQueue
  split
  · exact nextStage_walk _ s
  · rfl

theorem nextStage_countWait (l : LineNo) (s : State) : (s.countWait l).nextStage = s.nextStage := by
  unfold countWait
  split
  · rfl
  · dsimp only
    split
    · exact nextStage_of_boundary (markRing_boundary _ _ _ _ _ _ _)
    · rfl

theorem nextStage_standbyCounting (b : Bool) (s : State) : (s.standbyCounting b).nextStage = s.nextStage := by
  unfold standbyCounting
  split
  · split
    · exact nextStage_of_boundary (markDevice_boundary _ _ _)
    · rfl
  · rfl

/-- Each part of a boundary's work leads to the part after it (R132). -/
theorem nextStage_runStage (b : Boundary) (s : State) : (s.runStage b).nextStage = b.next.after := by
  unfold runStage
  cases b.next with
  | eviction => exact nextStage_suspendMany _ _ _
  | warmUp => exact nextStage_warmUp _
  | queueWalk => exact nextStage_walkQueue _
  | waitCounting => exact nextStage_foldl _ (fun u l => nextStage_countWait l u) _ _
  | standbyCounting => exact nextStage_standbyCounting _ _

/-- A run through all the parts, with fuel for those still to come, leaves none. -/
theorem runUpTo_last_boundary (n : Nat) (s : State) (enough : ∀ b, s.boundary = some b → 5 ≤ n + b.next.rank) :
    (s.runUpTo .standbyCounting n).boundary = none := by
  induction n generalizing s with
  | zero =>
    cases h : s.boundary with
    | none => exact h
    | some b =>
      have fuel := enough b h
      have last : b.next.rank ≤ 4 := rank_le_last b.next
      omega
  | succ n ih =>
    cases h : s.boundary with
    | none => rw [runUpTo_none _ h, h]
    | some b =>
      rw [runUpTo_next n h (rank_le_last _)]
      refine ih _ fun c hc => ?_
      have stage := nextStage_runStage b s
      rw [nextStage, hc] at stage
      have rank : c.next.rank = b.next.rank + 1 := Stage.rank_after stage.symm
      have fuel := enough b h
      omega

theorem runBoundary_boundary (s : State) : s.runBoundary.boundary = none :=
  runUpTo_last_boundary 5 s fun _ _ => Nat.le_add_right _ _

/-! ### The works of the step event before -/

theorem settleDue_due (s : State) : s.settleDue.due = [] := due_of_given (s := { s with due := [] }) s.settleDue_given

/-- With no work held there is none to settle. -/
theorem settleDue_of_none {s : State} (due : s.due = []) (boundary : s.boundary = none) : s.settleDue = s := by
  have cleared : { s with due := [] } = s := by
    rw [← due]
  unfold settleDue
  rw [due, cleared]
  exact runBoundary_none boundary

theorem settleDue_settled (s : State) : s.settleDue.settleDue = s.settleDue :=
  settleDue_of_none s.settleDue_due (runBoundary_boundary _)

theorem stepTime_settled (first held : List Work) (s : State) :
    s.settleDue.stepTime first held = s.stepTime first held := by
  unfold stepTime
  rw [settleDue_settled]

/-! ### The timebase's part -/

theorem advanceTimebase_lines (s : State) : s.advanceTimebase.lines = s.lines := by
  unfold advanceTimebase
  dsimp only
  split
  · rfl
  · rw [markSync_eq]
    rfl

theorem advanceTimebase_arb (s : State) : s.advanceTimebase.arb = s.arb := by
  unfold advanceTimebase
  dsimp only
  split
  · rfl
  · rw [markSync_eq]
    rfl

theorem advanceTimebase_line (l : LineNo) (s : State) : s.advanceTimebase.line l = s.line l := by
  unfold line
  rw [advanceTimebase_lines]

/-- A follower state that stays marks nothing (R32). -/
theorem advanceTimebase_link {s : State} (h : s.advanceTimebase.timebase.follower = s.timebase.follower) :
    s.advanceTimebase.link = s.link := by
  rw [advanceTimebase_timebase] at h
  have still : s.advanceTimebase = s.updTimebase fun t => t.advance.1 := if_pos h
  rw [still]
  rfl

/-- A change of follower state marks SYNC (R32). -/
theorem advanceTimebase_marked {s : State} (h : s.advanceTimebase.timebase.follower ≠ s.timebase.follower) :
    s.advanceTimebase.markedDevice s.link.mask .sync
      ([s.advanceTimebase.timebase.role.code, followerCode s.advanceTimebase.timebase.follower]
        ++ stampBytes s.advanceTimebase.timebase.stamp) := by
  have marks : s.advanceTimebase = (s.updTimebase fun t => t.advance.1).markSync := by
    rw [advanceTimebase_timebase] at h
    exact if_neg h
  rw [marks, markSync_timebase]
  exact markSync_marked _

/-! ### Which works there are -/

section

variable (s : State) (b : Bool) (l : LineNo)

@[simp] theorem mem_works_ring : .ring l ∈ s.works b := by
  simp [works, stepWorks]

theorem mem_works_callTimer : .callTimer l ∈ s.works b ↔ (s.line l).timer ≠ none := by
  cases b <;> simp [works, boundaryWorks, stepWorks, Option.isSome_iff_ne_none]

theorem mem_works_pendingAlarm : .pendingAlarm l ∈ s.works b ↔ (s.line l).call = .idle ∧ (s.line l).alarmPending ≠ none := by
  cases b <;> simp [works, boundaryWorks, stepWorks, Option.isSome_iff_ne_none]

theorem mem_works_activation : .activation l ∈ s.works b ↔ b = true ∧ (s.line l).commitPending = true := by
  cases b <;> simp [works, boundaryWorks, stepWorks]

theorem mem_works_alarmCount : .alarmCount l ∈ s.works b ↔ b = true ∧ (s.line l).call = .alarmRing := by
  cases b <;> simp [works, boundaryWorks, stepWorks]

theorem mem_works_calWait : .calWait l ∈ s.works b ↔ b = true ∧ ∃ r, (s.line l).run = some r ∧ r.phase = .wait := by
  rw [← Line.inWait_iff]
  cases b <;> simp [works, boundaryWorks, stepWorks]

theorem mem_works_arbiter : .arbiter ∈ s.works b ↔ b = true := by
  cases b <;> simp [works, boundaryWorks, stepWorks]

/-- No work is listed twice. -/
theorem works_nodup : (s.works b).Nodup := by
  have each : ∀ (f : LineNo → Work) (p : LineNo → Bool), Function.Injective f → ((lineNos.filter p).map f).Nodup :=
    fun f p inj => ((lineNos_eq ▸ List.nodup_finRange 16).filter p).map inj
  have rings : (lineNos.map Work.ring).Nodup := by
    simpa using each Work.ring (fun _ => true) fun _ _ h => Work.ring.inj h
  have timers := each Work.callTimer (fun l => (s.line l).timer.isSome) fun _ _ h => Work.callTimer.inj h
  have alarms := each Work.pendingAlarm (fun l => (s.line l).call == .idle && (s.line l).alarmPending.isSome)
    fun _ _ h => Work.pendingAlarm.inj h
  have activations := each Work.activation (fun l => (s.line l).commitPending) fun _ _ h => Work.activation.inj h
  have counts := each Work.alarmCount (fun l => (s.line l).call == .alarmRing) fun _ _ h => Work.alarmCount.inj h
  have waits := each Work.calWait (fun l => (s.line l).inWait) fun _ _ h => Work.calWait.inj h
  cases b <;> simp [works, boundaryWorks, stepWorks, List.nodup_append', List.disjoint_left, -List.mem_filter, *]

end

end State

/-! ### Which works are held, and in which order the others are done -/

theorem holdable_iff (w : Work) : holdable w = true ↔ ∀ l, w ≠ .ring l := by
  cases w <;> simp [holdable]

/-- The works put by and the works done are the works there are. -/
theorem held_and_done_perm (first works : List Work) (p : Work → Bool) :
    (orderWorks first (works.filter fun w => !(works.filter p).contains w) ++ works.filter p).Perm works := by
  have others : (works.filter fun w => !(works.filter p).contains w) = works.filter fun w => !p w :=
    List.filter_congr fun w hw => by simp [hw]
  rw [others]
  exact ((orderWorks_perm first _).append_right _).trans
    (List.perm_append_comm.trans (List.filter_append_perm p works))

end Sys2Proof.Machine

open Sys2Proof Sys2Proof.Machine

/-- Settles O42: the works still held are settled first; then the works that the moved timebase finds are split into those
held and those done in order. -/
theorem stepEventTakesEveryWorkOnce : Obligations.StepEventTakesEveryWorkOnce := by
  refine ⟨fun first held s due => ⟨s.settleDue_due, State.runBoundary_boundary _, s.settleDue_timebase, ?_⟩,
    fun first held s due noneDue noBoundary => ?_⟩
  · show _ = exec _ s.settleDue
    rw [exec_stepEvent first held due, exec_stepEvent first held (by rw [State.settleDue_timebase, due]),
      State.stepTime_settled]
  · have settled := State.settleDue_of_none noneDue noBoundary
    let works := s.advanceTimebase.works s.atBoundary
    let kept := works.filter fun w => held.contains w && holdable w
    have nodup : works.Nodup := State.works_nodup _ _
    obtain ⟨front, rest, split, rest_out, front_in, ordered⟩ :=
      orderWorks_split first (works.filter fun w => !kept.contains w) (nodup.filter _)
    have lines := fun l => s.advanceTimebase_line l
    refine ⟨works, orderWorks first (works.filter fun w => !kept.contains w), kept, s.stepTime first held,
      exec_stepEvent first held due, ?_, held_and_done_perm first works _, nodup, fun w => ?_,
      ⟨front, rest, split, rest_out, front_in, ordered⟩, fun l => ?_, fun l => ?_, fun l => ?_, fun l => ?_, fun l => ?_,
      fun l => ?_, ?_, s.advanceTimebase_lines, s.advanceTimebase_arb, State.advanceTimebase_marked,
      State.advanceTimebase_link⟩
    · unfold State.stepTime
      rw [settled]
      rfl
    · simp only [kept, List.mem_filter, Bool.and_eq_true, List.contains_iff_mem, holdable_iff]
    · exact State.mem_works_ring _ _ l
    · rw [State.mem_works_callTimer, lines]
    · rw [State.mem_works_pendingAlarm, lines]
    · rw [State.mem_works_activation, lines]
      rfl
    · rw [State.mem_works_alarmCount, lines]
      rfl
    · rw [State.mem_works_calWait, lines]
      rfl
    · exact State.mem_works_arbiter _ _
end

section
/-! The counts of a line: the hook machine's, the party test's, the tracking window's and the ring engine's (R43, R52, R56,
R148). The counts of the lines are in range when each line's are, and the work of every block keeps them so. -/

namespace Sys2Proof.Machine

/-! ### The counts of one line -/

/-- The counts of a hook machine are in range (R43). -/
def Hook.counted (h : Hook) : Prop := h.qualify ≤ 10 ∧ h.brk ≤ 90 ∧ h.make ≤ 30 ∧ h.pulse ≤ 11

/-- The counts of a play record are in range (R148). -/
def Play.counted (p : Play) : Prop := p.burstStep ≤ 255 ∧ p.inrush ≤ 5 ∧ p.trip ≤ 3

/-- The counts of a line are in range, and out of IDLE no tracking window is begun (R43, R52, R56, R148). -/
structure Line.Counted (x : Line) : Prop where
  hook : x.hook.counted
  test : x.test.scans ≤ 3
  window : x.track.count ≤ 100
  away : x.call ≠ .idle → x.track = Tracking.empty
  play : ∀ p, x.play = some p → p.counted

/-- The part of a line that the law of the counts speaks of. -/
def Line.counts (x : Line) : Hook × PartyTest × Tracking × CallState × Option Play :=
  (x.hook, x.test, x.track, x.call, x.play)

theorem Hook.onhookClear_counted : Hook.onhookClear.counted := by simp [counted, onhookClear]

theorem Hook.offhookClear_counted : Hook.offhookClear.counted := by simp [counted, offhookClear]

theorem Hook.closed_counted {m pulse : Nat} (hm : m ≤ 30) (hp : pulse ≤ 11) : (Hook.closed m pulse).1.counted := by
  unfold closed counted
  split
  · simp
  · exact ⟨Nat.zero_le _, Nat.zero_le _, hm, hp⟩

/-- The end of a break leaves a make count and a pulse count in range (R47). -/
theorem Hook.endBreak_counted {h : Hook} (c : h.counted) (n : Nat) : (h.endBreak n).1.counted := by
  obtain ⟨_, _, _, pulse⟩ := c
  unfold endBreak
  split
  · split
    · exact closed_counted (min_le_left _ _) pulse
    · exact ⟨Nat.zero_le _, Nat.zero_le _, Nat.le_refl _, pulse⟩
  · split
    · simp [counted]
    · split <;> simp [counted]

/-- A scan keeps the counts of the hook machine in range (R44 to R47). -/
theorem Hook.scan_counted {h : Hook} (c : h.counted) (make : Bool) {required : Nat} (bound : required ≤ 10) :
    (h.scan make required).1.counted := by
  obtain ⟨qualify, brk, makes, pulse⟩ := c
  unfold scan
  split
  · exact ⟨qualify, brk, makes, pulse⟩
  · exact ⟨by simp, brk, makes, pulse⟩
  · exact ⟨by simp, brk, makes, pulse⟩
  · split
    · exact ⟨by dsimp only; omega, brk, makes, pulse⟩
    · exact ⟨by simp, brk, by simp, by simp⟩
  · split
    · exact closed_counted (by omega) pulse
    · exact ⟨qualify, brk, makes, pulse⟩
  · exact ⟨qualify, by simp, makes, pulse⟩
  · split
    · simp [counted]
    · exact ⟨qualify, by dsimp only; omega, makes, pulse⟩
  · exact endBreak_counted ⟨qualify, brk, makes, pulse⟩ _

theorem Line.required_le (x : Line) : x.required ≤ 10 := by
  unfold required
  split <;> omega

theorem Play.opened_counted (e : Entry) : (Play.opened e).counted := by simp [counted, opened]

theorem Play.quiet_counted (p : Play) : p.quiet.counted := by simp [counted, quiet]

theorem Play.rung_counted {p : Play} (c : p.counted) (d : RingDrive) : (p.rung d).counted := by
  unfold rung
  split
  · exact ⟨min_le_left _ _, c.2⟩
  · simp [counted, begin]

theorem Play.tripped_counted {p : Play} (c : p.counted) : p.tripped.counted :=
  ⟨c.1, Nat.zero_le _, Nat.zero_le _⟩

/-- A judged scan that is no ring trip leaves the counts in range (R154). -/
theorem Play.judge_counted {p : Play} (c : p.counted) (met : Bool) (noTrip : ¬3 ≤ (p.judge met).trip) :
    (p.judge met).counted := by
  have rest : (p.judge met).burstStep ≤ 255 ∧ (p.judge met).inrush ≤ 5 := by
    unfold judge
    split
    · exact ⟨c.1, by dsimp only; omega⟩
    · split <;> exact ⟨c.1, c.2.1⟩
  exact ⟨rest.1, rest.2, by omega⟩

theorem Play.measure_counted {p : Play} (c : p.counted) (r : Reading) : (p.measure r).counted := by
  unfold measure
  split <;> exact c

namespace Line.Counted

variable {x : Line}

theorem of_counts {y : Line} (c : x.Counted) (h : y.counts = x.counts) : y.Counted := by
  simp only [counts, Prod.mk.injEq] at h
  obtain ⟨hook, test, track, call, play⟩ := h
  exact ⟨hook ▸ c.hook, test ▸ c.test, track ▸ c.window, by rw [track, call]; exact c.away, by rw [play]; exact c.play⟩

theorem withHook (c : x.Counted) {k : Hook} (h : k.counted) : Line.Counted { x with hook := k } :=
  ⟨h, c.test, c.window, c.away, c.play⟩

theorem withTest (c : x.Counted) {k : PartyTest} (h : k.scans ≤ 3) : Line.Counted { x with test := k } :=
  ⟨c.hook, h, c.window, c.away, c.play⟩

theorem withPlay (c : x.Counted) {p : Option Play} (h : ∀ q, p = some q → q.counted) :
    Line.Counted { x with play := p } :=
  ⟨c.hook, c.test, c.window, c.away, h⟩

/-- A tracking window discarded, or not begun. -/
theorem withoutTrack (c : x.Counted) : Line.Counted { x with track := Tracking.empty } :=
  ⟨c.hook, c.test, Nat.zero_le _, fun _ => rfl, c.play⟩

/-- Another call state, with the tracking window that it leaves (R56). -/
theorem withCall (c : x.Counted) (new : CallState) : Line.Counted { x with call := new, track := x.trackAfter new } := by
  by_cases leaves : x.call = .idle ∧ new ≠ .idle
  · rw [Line.trackAfter_leaving leaves.1 leaves.2]
    exact ⟨c.hook, c.test, Nat.zero_le _, fun _ => rfl, c.play⟩
  · rw [show x.trackAfter new = x.track from if_neg leaves]
    exact ⟨c.hook, c.test, c.window, fun out => c.away fun idle => leaves ⟨idle, out⟩, c.play⟩

theorem softReset (x : Line) : x.softReset.Counted :=
  ⟨Hook.onhookClear_counted, Nat.zero_le _, Nat.zero_le _, fun _ => rfl, nofun⟩

end Line.Counted

/-! ### The counts of all lines -/

/-- The counts of every line are in range. -/
def State.linesCounted (s : State) : Prop := ∀ l, (s.line l).Counted

namespace State.linesCounted

variable {s : State}

theorem of_lines {t : State} (h : s.linesCounted) (same : t.lines = s.lines) : t.linesCounted := fun l => by
  have c := h l
  unfold State.line at c ⊢
  rwa [same]

theorem updLine (h : s.linesCounted) (l : LineNo) (f : Line → Line)
    (c : (s.line l).Counted → (f (s.line l)).Counted) : (s.updLine l f).linesCounted := fun m => by
  rw [State.line_updLine]
  split
  · exact c (h l)
  · exact h m

/-- An update of a line that touches no count. -/
theorem edit (h : s.linesCounted) (l : LineNo) (f : Line → Line)
    (same : (f (s.line l)).counts = (s.line l).counts := by rfl) : (s.updLine l f).linesCounted :=
  h.updLine l f fun c => c.of_counts same

theorem mark (h : s.linesCounted) (k : ReportKind) (e : Fin 17) (d : List Byte) : (s.mark k e d).linesCounted :=
  h.of_lines (State.mark_lines s k e d)

/-- Operations that keep the counts, one after another. -/
theorem foldl {α : Type} (f : State → α → State) (keeps : ∀ {u : State}, u.linesCounted → ∀ a, (f u a).linesCounted)
    (as : List α) (h : s.linesCounted) : (as.foldl f s).linesCounted := by
  induction as generalizing s with
  | nil => exact h
  | cons a as ih => exact ih (keeps h a)

/-! ### The arbiter -/

theorem placeEntry (h : s.linesCounted) (l : LineNo) (e : Entry) (φ : Nat) : (s.placeEntry l e φ).linesCounted := fun m => by
  rw [State.line_placeEntry]
  split
  · exact (h l).of_counts rfl
  · exact h m

theorem joinWaiting (h : s.linesCounted) (l : LineNo) : (s.joinWaiting l).linesCounted := by
  unfold State.joinWaiting
  split <;> exact h

theorem standbyEvent (h : s.linesCounted) (ev : StandbyEvent) : (s.standbyEvent ev).linesCounted := by
  have reloaded : (s.reloadStandby ev).linesCounted := by
    unfold State.reloadStandby
    split <;> exact h
  unfold State.standbyEvent
  dsimp only
  split
  · exact mark (s := (s.reloadStandby ev).updArb _) reloaded _ _ _
  · exact reloaded

theorem tryAdmission (h : s.linesCounted) (l : LineNo) (e : Entry) : (s.tryAdmission l e).linesCounted := by
  unfold State.tryAdmission
  split
  · split
    · exact h.placeEntry _ _ _
    · exact h.joinWaiting _
  · exact h.joinWaiting _

theorem request (h : s.linesCounted) (l : LineNo) (e : Entry) : (s.request l e).linesCounted :=
  (standbyEvent (s := s.setRow l (some e)) h .request).tryAdmission l e

theorem removeEntry (h : s.linesCounted) (l : LineNo) : (s.removeEntry l).linesCounted := fun m => by
  by_cases same : m = l
  · subst same
    rw [State.line_removeEntry]
    refine (h m).withPlay fun q e => ?_
    split at e
    · exact (h m).play q e
    · cases e
  · rw [(Local.removeEntry l).line m same]
    exact h m

/-! ### Records and call states -/

theorem writeBaseline (h : s.linesCounted) (l : LineNo) (b : Nat) : (s.writeBaseline l b).linesCounted := by
  unfold State.writeBaseline
  dsimp only
  split
  · exact h.edit l _
  · exact (h.edit l _).mark _ _ _

theorem updRecord (h : s.linesCounted) (l : LineNo) (f : Record → Record) : (s.updRecord l f).linesCounted :=
  h.edit l _

theorem putCall (h : s.linesCounted) (l : LineNo) (new : CallState) : (s.putCall l new).linesCounted :=
  h.updLine l _ fun c => (c.withCall new).of_counts rfl

theorem completeRecord (h : s.linesCounted) (l : LineNo) (c : EndCause) : (s.completeRecord l c).linesCounted := by
  unfold State.completeRecord
  split
  · exact h
  · exact (h.edit l _).mark _ _ _

theorem enter (h : s.linesCounted) (l : LineNo) (new : CallState) : (s.enter l new).linesCounted := by
  unfold State.enter
  dsimp only
  split
  · exact h.putCall l new
  · exact (h.putCall l new).mark _ _ _

theorem endCall (h : s.linesCounted) (l : LineNo) (new : CallState) (c : EndCause) : (s.endCall l new c).linesCounted := by
  have put := (h.completeRecord l c).putCall l new
  unfold State.endCall
  dsimp only
  split
  · exact put
  · exact put.mark _ _ _

theorem openCall (h : s.linesCounted) (l : LineNo) (r : Record) : (s.openCall l r).linesCounted := h.edit l _

theorem originate (h : s.linesCounted) (l : LineNo) : (s.originate l).linesCounted :=
  ((((h.openCall l _).updLine l _ fun c => c.withTest (Nat.zero_le _)).enter l .ident)).standbyEvent .offhook

/-! ### Calibration -/

theorem failRun (h : s.linesCounted) (l : LineNo) (c : CalCause) : (s.failRun l c).linesCounted := by
  unfold State.failRun
  split
  · exact h
  · exact ((h.removeEntry l).edit l _).mark _ _ _

theorem failToIdle (h : s.linesCounted) (l : LineNo) (c : CalCause) : (s.failToIdle l c).linesCounted := by
  unfold State.failToIdle
  split
  · exact h
  · exact (h.failRun l c).enter l _

theorem completeRun (h : s.linesCounted) (l : LineNo) (r : Run) (loads : Tab 4 Nat) (t : Nat) :
    (s.completeRun l r loads t).linesCounted :=
  (((h.edit l _).writeBaseline l _).mark _ _ _).enter l _

theorem computeRun (h : s.linesCounted) (l : LineNo) (r : Run) : (s.computeRun l r).linesCounted := by
  unfold State.computeRun
  split
  · exact (h.edit l _).failToIdle l _
  · exact h.completeRun l r _ _

theorem beginWait (h : s.linesCounted) (l : LineNo) (f : Channel) : (s.beginWait l f).linesCounted := by
  unfold State.beginWait
  split
  · exact h
  · dsimp only
    split
    · exact (h.edit l _).failToIdle l _
    · exact (h.edit l _).request l _

theorem burstEnd (h : s.linesCounted) (l : LineNo) (n ac dc : Nat) : (s.burstEnd l n ac dc).linesCounted := by
  unfold State.burstEnd
  split
  · exact h
  · dsimp only
    split
    · exact (h.removeEntry l).failToIdle l _
    · split
      · exact ((h.removeEntry l).edit l _).beginWait l _
      · exact ((h.removeEntry l).edit l _).computeRun l _

theorem calWaitCount (h : s.linesCounted) (l : LineNo) : (s.calWaitCount l).linesCounted := by
  unfold State.calWaitCount
  split
  · exact h
  · split
    · exact h
    · exact h
    · dsimp only
      split
      · exact (h.edit l _).failToIdle l _
      · exact h.edit l _

theorem leakScan (h : s.linesCounted) (l : LineNo) (i : Nat) : (s.leakScan l i).linesCounted := by
  unfold State.leakScan
  split
  · exact h
  · split
    · exact h
    · exact h
    · dsimp only
      split
      · exact h.edit l _
      · split
        · exact (h.edit l _).failToIdle l _
        · split
          · exact h.edit l _
          · exact ((h.edit l _).edit l _).beginWait l _

theorem calibrationLift (h : s.linesCounted) (l : LineNo) (m : Manner) : (s.calibrationLift l m).linesCounted := by
  cases m with
  | trip => exact ((h.failRun l _).updLine l _ fun c => c.withHook Hook.offhookClear_counted).originate l
  | silent => exact (h.failRun l _).originate l

/-! ### Reverting calls -/

theorem enterExchWait (h : s.linesCounted) (l : LineNo) : (s.enterExchWait l).linesCounted := by
  unfold State.enterExchWait
  dsimp only
  split
  · exact (h.edit l _).enter l _
  · exact ((h.edit l _).enter l _).mark _ _ _

theorem revertChecks (h : s.linesCounted) (l : LineNo) (called : Option (LineNo × Slot)) :
    (s.revertChecks l called).linesCounted := by
  unfold State.revertChecks
  dsimp only
  split
  · exact h.endCall l _ _
  · split
    · exact h.endCall l _ _
    · split
      · exact h.endCall l _ _
      · split
        · exact (h.updRecord l _).endCall l _ _
        · split
          · exact (h.updRecord l _).endCall l _ _
          · split
            · exact (h.updRecord l _).endCall l _ _
            · exact ((h.updRecord l _).updRecord l _).enter l _

theorem dialAction (h : s.linesCounted) (l : LineNo) (a : Action) : (s.dialAction l a).linesCounted := by
  cases a with
  | exchange => exact h.enterExchWait l
  | refuse => exact h.endCall l _ _
  | revertParty => exact h.revertChecks l _
  | revertSuffix => exact h.revertChecks l _

theorem consultDialPlan (h : s.linesCounted) (l : LineNo) : (s.consultDialPlan l).linesCounted := by
  unfold State.consultDialPlan
  split
  · exact h
  · exact h.dialAction l _
  · split
    · exact h.enterExchWait l
    · exact h.endCall l _ _

theorem revertHangup (h : s.linesCounted) (l : LineNo) : (s.revertHangup l).linesCounted := by
  unfold State.revertHangup
  split
  · exact h.endCall l _ _
  · exact (h.enter l _).request l _

theorem revertLift (h : s.linesCounted) (l : LineNo) (m : Manner) : (s.revertLift l m).linesCounted := by
  refine ((h.removeEntry l).updLine l _ fun c => ?_).enter l .revertCheck
  have hook : (match m with | .trip => Hook.offhookClear | .silent => ((s.removeEntry l).line l).hook).counted := by
    cases m with
    | trip => exact Hook.offhookClear_counted
    | silent => exact c.hook
  exact ⟨hook, Nat.zero_le _, c.window, c.away, c.play⟩

theorem markAnswer (h : s.linesCounted) (l : LineNo) (m : Manner) : (s.markAnswer l m).linesCounted := by
  unfold State.markAnswer
  split
  · exact h
  · exact h.mark _ _ _

theorem revertResult (h : s.linesCounted) (l : LineNo) (r : TestResult) : (s.revertResult l r).linesCounted := by
  unfold State.revertResult
  dsimp only
  split
  · split
    · exact (h.updRecord l _).enter l _
    · split
      · exact (h.updRecord l _).endCall l _ _
      · exact (h.updRecord l _).enter l _
  · exact ((h.updRecord l _).markAnswer l _).enter l _

/-! ### Call control -/

theorem handResult (h : s.linesCounted) (l : LineNo) (r : TestResult) : (s.handResult l r).linesCounted := by
  unfold State.handResult
  split
  · exact ((h.updRecord l _).mark _ _ _).enter l _
  · exact h.revertResult l r
  all_goals exact h

theorem callDigit (h : s.linesCounted) (l : LineNo) (d : Digit) : (s.callDigit l d).linesCounted := by
  unfold State.callDigit
  split
  · exact (h.edit l _).consultDialPlan l
  · exact h.edit l _
  · exact (h.edit l _).mark _ _ _
  all_goals exact h

theorem callDigitError (h : s.linesCounted) (l : LineNo) : (s.callDigitError l).linesCounted := by
  unfold State.callDigitError
  split
  · exact h.endCall l _ _
  · exact h.edit l _
  · exact (h.edit l _).mark _ _ _
  all_goals exact h

theorem alarmAnswer (h : s.linesCounted) (l : LineNo) (m : Manner) : (s.alarmAnswer l m).linesCounted := by
  have removed := (h.removeEntry l).updRecord l fun r => { r with answer := some s.stamp }
  cases m with
  | trip =>
    exact ((removed.updLine l _ fun c => c.withHook Hook.offhookClear_counted).markAnswer l .trip).enterExchWait l
  | silent => exact (removed.markAnswer l .silent).enterExchWait l

theorem lift (h : s.linesCounted) (l : LineNo) (m : Manner) : (s.lift l m).linesCounted := by
  unfold State.lift
  split
  · exact (((h.removeEntry l).updRecord l _).markAnswer l m).enter l _
  · exact h.alarmAnswer l m
  · exact h.revertLift l m
  · exact h.calibrationLift l m
  all_goals exact h

theorem callOffHook (h : s.linesCounted) (l : LineNo) : (s.callOffHook l).linesCounted := by
  unfold State.callOffHook
  split
  · exact h.originate l
  · exact h.lift l _

theorem callOnHook (h : s.linesCounted) (l : LineNo) : (s.callOnHook l).linesCounted := by
  unfold State.callOnHook
  split
  · exact h.endCall l _ _
  · exact h.endCall l _ _
  · exact h.endCall l _ _
  · exact h.endCall l _ _
  · exact h.enter l _
  · exact h.enter l _
  · exact h.revertHangup l
  all_goals exact h

theorem handItem (h : s.linesCounted) (l : LineNo) (i : HookItem) : (s.handItem l i).linesCounted := by
  cases i with
  | offHook => exact h.callOffHook l
  | onHook => exact h.callOnHook l
  | digit d => exact (h.callDigit l d).standbyEvent _
  | digitError => exact (h.callDigitError l).standbyEvent _
  | flash =>
    show (s.callFlash l).linesCounted
    unfold State.callFlash
    split
    · exact h.mark _ _ _
    · exact h
  | pulse =>
    show (s.callPulse l).linesCounted
    unfold State.callPulse
    split
    · exact h.edit l _
    · exact h

theorem expiry (h : s.linesCounted) (l : LineNo) : (s.expiry l).linesCounted := by
  unfold State.expiry
  split
  · exact h.endCall l _ _
  · exact h.endCall l _ _
  · exact (h.removeEntry l).endCall l _ _
  · exact (h.removeEntry l).endCall l _ _
  · exact h.enter l _
  · exact h.endCall l _ _
  all_goals exact h

theorem callTimerStep (h : s.linesCounted) (l : LineNo) : (s.callTimerStep l).linesCounted := by
  unfold State.callTimerStep
  split
  · exact h
  · split
    · exact (h.edit l _).expiry l
    · exact h.edit l _

theorem startAlarm (h : s.linesCounted) (l : LineNo) (v : Voice) (n : Nat) : (s.startAlarm l v n).linesCounted :=
  (((h.openCall l _).edit l _).enter l _).request l _

theorem pendingAlarmStep (h : s.linesCounted) (l : LineNo) : (s.pendingAlarmStep l).linesCounted := by
  unfold State.pendingAlarmStep
  split
  · split
    · exact h.startAlarm l _ _
    · exact (h.edit l _).mark _ _ _
  · exact h

theorem endAlarm (h : s.linesCounted) (l : LineNo) : (s.endAlarm l).linesCounted := (h.removeEntry l).endCall l _ _

theorem alarmCountStep (h : s.linesCounted) (l : LineNo) : (s.alarmCountStep l).linesCounted := by
  unfold State.alarmCountStep
  split
  · dsimp only
    split
    · exact (h.edit l _).endAlarm l
    · exact h.edit l _
  · exact h

theorem disableLine (h : s.linesCounted) (l : LineNo) : (s.disableLine l).linesCounted := by
  rw [State.disableLine_eq]
  have halted : (s.halted l).linesCounted :=
    ((h.removeEntry l).failRun l _).updLine l _ fun c => (c.withTest (Nat.zero_le _)).of_counts rfl
  exact (halted.endCall l _ _).edit l _

theorem enableLine (h : s.linesCounted) (l : LineNo) : (s.enableLine l).linesCounted := by
  unfold State.enableLine
  split
  · exact (h.updLine l _ fun c => c.withHook Hook.onhookClear_counted).enter l _
  · exact h

/-! ### Scans -/

theorem hookScan (h : s.linesCounted) (l : LineNo) (r : Reading) : (s.hookScan l r).linesCounted :=
  foldl _ (fun k i => k.handItem l i) _
    (h.updLine l _ fun c => c.withHook (Hook.scan_counted c.hook _ (Line.required_le _)))

theorem testScan (h : s.linesCounted) (l : LineNo) (r : Reading) : (s.testScan l r).linesCounted := by
  unfold State.testScan
  dsimp only
  split
  · exact h.updLine l _ fun c => c.withTest (by dsimp only; omega)
  · exact (h.updLine l _ fun c => c.withTest (Nat.zero_le _)).handResult l _

theorem ringScan (h : s.linesCounted) (l : LineNo) (r : Reading) {p : Play} (c : p.counted) :
    (s.ringScan l r p).linesCounted := by
  unfold State.ringScan
  dsimp only
  split
  · exact (h.updLine l _ fun x => x.withPlay fun q e => Option.some_inj.mp e ▸ Play.tripped_counted c).lift l _
  · next noTrip =>
    have judged := Play.judge_counted c _ noTrip
    refine h.updLine l _ fun x => x.withPlay fun q e => Option.some_inj.mp e ▸ ?_
    split
    · exact Play.measure_counted judged r
    · exact judged

theorem trackScan (h : s.linesCounted) (l : LineNo) (judged : Bool) (i : Nat) :
    (s.trackScan l judged i).linesCounted := by
  unfold State.trackScan
  dsimp only
  split
  · next tracks =>
    have idle : (s.line l).call = .idle := by
      simp only [Line.tracks, Bool.and_eq_true, beq_iff_eq] at tracks
      exact tracks.1.2
    split
    · exact h.updLine l _ fun c => ⟨c.hook, c.test, by dsimp only; omega, fun out => absurd idle out, c.play⟩
    · exact (h.updLine l _ fun c => c.withoutTrack).writeBaseline l _
  · exact h.updLine l _ fun c => c.withoutTrack

theorem loopScan (h : s.linesCounted) (l : LineNo) (r : Reading) : (s.loopScan l r).linesCounted := by
  have hook : (if (s.line l).suspended then s else s.hookScan l r).linesCounted := by
    split
    · exact h
    · exact h.hookScan l r
  unfold State.loopScan
  dsimp only
  split
  · exact h.testScan l r
  · split
    · next p playing =>
      split
      · exact h.ringScan l r ((h l).play p playing)
      · exact hook
    · exact hook

theorem scanLine (h : s.linesCounted) (l : LineNo) (r : Reading) : (s.scanLine l r).linesCounted := by
  have counted : (s.countScan l).linesCounted := h
  unfold State.scanLine
  dsimp only
  split
  · split
    · exact ((counted.loopScan l r).trackScan l _ _).leakScan l _
    · exact ((counted.updLine l _ fun c => c.withoutTrack.of_counts rfl).mark _ _ _).disableLine l
  · have seen := counted.updLine l
      (fun x => { x with presentSeen := true, fitted := r.present, track := Tracking.empty })
      fun c => c.withoutTrack.of_counts rfl
    unfold State.unfittedScan
    dsimp only
    split
    · exact seen.mark _ _ _
    · exact seen

/-! ### The frame boundary and the step event -/

theorem withdraw (h : s.linesCounted) (l : LineNo) : (s.withdraw l).linesCounted := by
  unfold State.withdraw
  split
  · exact h
  · exact updLine (s := s.updArb _) h l _ fun c => c.withPlay (p := none) nofun

theorem markSuspended (h : s.linesCounted) (c : SuspendCause) (l : LineNo) : (s.markSuspended c l).linesCounted := by
  unfold State.markSuspended
  split
  · exact h
  · exact h.mark _ _ _

theorem suspensionNotice (h : s.linesCounted) (l : LineNo) : (s.suspensionNotice l).linesCounted := by
  unfold State.suspensionNotice
  split
  · exact h
  · split
    · exact h.failToIdle l _
    · exact h

theorem suspendMany (h : s.linesCounted) (ls : List LineNo) (c : SuspendCause) : (s.suspendMany ls c).linesCounted := by
  have withdrawn := foldl _ (fun k l => k.withdraw l) ls h
  have marked := foldl _ (fun k l => k.markSuspended c l) ls (s := State.joinSuspended ls _) withdrawn
  exact foldl _ (fun k l => k.suspensionNotice l) ls marked

theorem warmUp (h : s.linesCounted) : s.warmUp.linesCounted := by
  unfold State.warmUp
  split
  · exact h
  · exact h
  · split
    · exact mark (s := s.updArb _) h _ _ _
    · exact h

theorem walk (ls : List LineNo) (h : s.linesCounted) : (s.walk ls).linesCounted := by
  induction ls generalizing s with
  | nil => exact h
  | cons l ls ih =>
    unfold State.walk
    split
    · exact ih h
    · split
      · exact ih h
      · split
        · exact h
        · exact ih (h.placeEntry _ _ _)

theorem countWait (h : s.linesCounted) (l : LineNo) : (s.countWait l).linesCounted := by
  unfold State.countWait
  split
  · exact h
  · dsimp only
    split
    · exact mark (s := s.setRow l _) h _ _ _
    · exact h

theorem standbyCounting (h : s.linesCounted) (b : Bool) : (s.standbyCounting b).linesCounted := by
  unfold State.standbyCounting
  split
  · split
    · exact mark (s := s.updArb _) h _ _ _
    · exact h
  · exact h

theorem runStage (h : s.linesCounted) (b : Boundary) : (s.runStage b).linesCounted := by
  have held : ∀ c, State.linesCounted { s with boundary := c } := fun _ => h
  unfold State.runStage
  split
  · exact (held _).suspendMany _ _
  · exact (held _).warmUp
  · unfold State.walkQueue
    split
    · exact (held _).walk _
    · exact h
  · exact foldl _ (fun k l => k.countWait l) _ (held _)
  · exact (held _).standbyCounting _

theorem runUpTo (h : s.linesCounted) (g : Stage) (n : Nat) : (s.runUpTo g n).linesCounted := by
  induction n generalizing s with
  | zero => exact h
  | succ n ih =>
    unfold State.runUpTo
    split
    · exact h
    · split
      · exact ih (h.runStage _)
      · exact h

theorem playStep (h : s.linesCounted) (l : LineNo) (e : Entry) (φ : Nat) {p : Play} (c : p.counted) :
    (s.playStep l e φ p).linesCounted := by
  have quiet : ∀ q : Play, (s.updLine l fun y => { y with play := some q.quiet }).linesCounted := fun q =>
    h.updLine l _ fun x => x.withPlay fun _ e => Option.some_inj.mp e ▸ q.quiet_counted
  have armed : ∀ b, Play.counted { p with armed := b } := fun _ => c
  unfold State.playStep
  dsimp only
  split
  · unfold State.endBurst
    split
    · exact (quiet _).burstEnd l _ _ _
    · exact quiet _
  · split
    · refine h.updLine l _ fun x => x.withPlay fun _ e => Option.some_inj.mp e ▸ ?_
      exact Play.rung_counted (armed _) _
    · exact quiet _

theorem ringStep (h : s.linesCounted) (l : LineNo) : (s.ringStep l).linesCounted := by
  unfold State.ringStep
  split
  · exact h
  · next e _ =>
    split
    · refine h.playStep l e _ ?_
      cases playing : (s.line l).play with
      | none => exact Play.opened_counted e
      | some p => exact (h l).play p playing
    all_goals exact h

theorem activation (h : s.linesCounted) (l : LineNo) : (s.activation l).linesCounted := by
  unfold State.activation
  split
  · exact (h.edit l _).mark _ _ _
  · exact h

theorem doWork (h : s.linesCounted) (w : Work) : (s.doWork w).linesCounted := by
  cases w with
  | activation l => exact h.activation l
  | alarmCount l => exact h.alarmCountStep l
  | calWait l => exact h.calWaitCount l
  | arbiter => exact runUpTo (s := { s with boundary := some Boundary.fresh }) h _ _
  | callTimer l => exact h.callTimerStep l
  | pendingAlarm l => exact h.pendingAlarmStep l
  | ring l => exact h.ringStep l

theorem hold (h : s.linesCounted) (w : Work) : (s.hold w).linesCounted := by
  cases w <;> exact h

theorem stepTime (h : s.linesCounted) (first held : List Work) : (s.stepTime first held).linesCounted := by
  have settled : s.settleDue.linesCounted :=
    (foldl _ (fun k w => k.doWork w) s.due (s := { s with due := [] }) h).runUpTo _ _
  have advanced := settled.of_lines (State.advanceTimebase_lines _)
  exact foldl _ (fun k w => k.doWork w) _ (foldl _ (fun k w => k.hold w) _ advanced)

end State.linesCounted

end Sys2Proof.Machine
end

section
/-! The law of the counts through the commands of the host, the link and every event (R31, R43, R52, R56, R148). -/

namespace Sys2Proof.Machine

namespace State.linesCounted

variable {s : State}

/-! ### Commands of the host -/

theorem forLines (f : LineNo → State → State × Status)
    (keeps : ∀ l (u : State), u.linesCounted → (f l u).1.linesCounted) (ls : List LineNo) (h : s.linesCounted) :
    (Machine.forLines f ls s).1.linesCounted :=
  forLines_relates (R := fun s t => s.linesCounted → t.linesCounted) (fun _ => id) (fun k m => m ∘ k)
    (fun l u => keeps l u) ls s h

theorem takeOptions (h : s.linesCounted) (l : LineNo) (new : BitVec 4) : (s.takeOptions l new).linesCounted := by
  have taken : (s.updLine l fun x => { x with opts := new }).linesCounted := h.edit l _
  unfold State.takeOptions
  dsimp only
  split
  · exact taken.enableLine l
  · split
    · exact taken.disableLine l
    · exact taken

theorem lineOptionsAt (f : WriteForm) (v : BitVec 4) (l : LineNo) (u : State) (h : u.linesCounted) :
    (Machine.lineOptionsAt f v l u).1.linesCounted := by
  unfold Machine.lineOptionsAt
  dsimp only
  split
  · exact h.takeOptions l _
  · exact h

theorem lineLockAt (l : LineNo) (u : State) (h : u.linesCounted) : (Machine.lineLockAt l u).1.linesCounted := by
  unfold Machine.lineLockAt
  split
  · exact h
  · exact h.edit l _

theorem alarmRingAt (n : Nat) (l : LineNo) (u : State) (h : u.linesCounted) :
    (Machine.alarmRingAt n l u).1.linesCounted := by
  unfold Machine.alarmRingAt
  split
  · exact h
  · split
    · exact h
    · split
      · exact h.startAlarm l _ _
      · exact h.edit l _

theorem alarmStopAt (l : LineNo) (u : State) (h : u.linesCounted) : (Machine.alarmStopAt l u).1.linesCounted := by
  have cleared : (u.updLine l fun x => { x with alarmPending := none }).linesCounted := h.edit l _
  unfold Machine.alarmStopAt
  dsimp only
  split
  · exact cleared.endAlarm l
  · split
    · exact cleared
    · exact h

theorem carryRingParty (h : s.linesCounted) (p : List Byte) : (s.carryRingParty p).1.linesCounted := by
  unfold State.carryRingParty
  split
  · exact h
  · next l i _ =>
    simp only [State.ringParty, State.refuse, State.refuseAs, State.ok, apply_ite Prod.fst]
    split_ifs
    · exact h
    · exact h
    · exact h
    · exact h
    · exact h
    · exact (((h.openCall l _).enter l _).edit l _).request l _

theorem carryConnect (h : s.linesCounted) (p : List Byte) : (s.carryConnect p).1.linesCounted := by
  unfold State.carryConnect State.connectLine
  dsimp only
  split
  · split
    · exact (h.updRecord _ _).enter _ _
    · exact ((h.updRecord _ _).mark _ _ _).enter _ _
  · exact h

theorem carryLineRelease (h : s.linesCounted) (p : List Byte) : (s.carryLineRelease p).1.linesCounted := by
  unfold State.carryLineRelease
  dsimp only
  split
  · exact h
  · exact ((h.removeEntry _).updLine _ _ fun c => c.withTest (Nat.zero_le _)).endCall _ _ _

theorem carryTestAccess (h : s.linesCounted) (p : List Byte) : (s.carryTestAccess p).1.linesCounted := by
  unfold State.carryTestAccess
  dsimp only
  split
  · exact (h.updLine _ _ fun c => c.withoutTrack.of_counts rfl).enter _ _
  · exact h

theorem carryTestRelease (h : s.linesCounted) (p : List Byte) : (s.carryTestRelease p).1.linesCounted := by
  have hook : ∀ c : CallState, c.assumedHook.counted := by
    intro c
    cases c <;> simp [CallState.assumedHook, Hook.onhookClear_counted, Hook.offhookClear_counted]
  unfold State.carryTestRelease
  dsimp only
  split
  · exact (h.updLine _ _ fun c => (c.withHook (hook _)).of_counts rfl).enter _ _
  · exact h

theorem carryCalibrate (h : s.linesCounted) (p : List Byte) : (s.carryCalibrate p).1.linesCounted := by
  unfold State.carryCalibrate
  dsimp only
  split
  · exact h
  · split
    · exact (h.edit _ _).enter _ _
    · exact h

theorem carryRingCancel (h : s.linesCounted) (p : List Byte) : (s.carryRingCancel p).1.linesCounted := by
  unfold State.carryRingCancel
  dsimp only
  split
  · exact (h.removeEntry _).endCall _ _ _
  · exact h

theorem carryReject (h : s.linesCounted) (p : List Byte) : (s.carryReject p).1.linesCounted := by
  unfold State.carryReject
  dsimp only
  split
  · exact h.endCall _ _ _
  · exact h

theorem carryDisconnect (h : s.linesCounted) (p : List Byte) : (s.carryDisconnect p).1.linesCounted := by
  unfold State.carryDisconnect
  dsimp only
  split
  · exact h.endCall _ _ _
  · exact h

theorem carryCalibrateCancel (h : s.linesCounted) (p : List Byte) : (s.carryCalibrateCancel p).1.linesCounted := by
  unfold State.carryCalibrateCancel
  dsimp only
  split
  · exact h.failToIdle _ _
  · exact h

/-- Carrying out a command keeps the counts of the lines in range. -/
theorem carry (h : s.linesCounted) (c : HostCmd) (p : List Byte) : (s.carry c p).1.linesCounted := by
  cases c <;> simp only [State.carry]
  case softReset =>
    intro l
    simp only [State.carrySoftReset, State.ok_fst, State.softReset, State.line, Tab.get_build]
    exact Line.Counted.softReset _
  case timebaseSet =>
    unfold State.carryTimebaseSet
    dsimp only
    split
    · exact h
    · exact mark (s := s.updTimebase _) h _ _ _
  case lineOptions => exact forLines _ (lineOptionsAt _ _) _ h
  case lineLock => exact forLines _ lineLockAt _ h
  case alarmRing => exact forLines _ (alarmRingAt _) _ h
  case alarmStop => exact forLines _ alarmStopAt _ h
  case ringParty => exact h.carryRingParty p
  case ringCancel => exact h.carryRingCancel p
  case connect => exact h.carryConnect p
  case reject => exact h.carryReject p
  case disconnect => exact h.carryDisconnect p
  case lineRelease => exact h.carryLineRelease p
  case testAccess => exact h.carryTestAccess p
  case testRelease => exact h.carryTestRelease p
  case calibrate => exact h.carryCalibrate p
  case calibrateCancel => exact h.carryCalibrateCancel p
  case partyWrite | alarmIdentity | planDiscard | lineLevels | lineLoads =>
    simp only [State.carryPartyWrite, State.carryAlarmIdentity, State.carryPlanDiscard, State.carryLineLevels,
      State.carryLineLoads]
    split
    · exact h
    · exact h.edit _ _
  case planCommit =>
    unfold State.carryPlanCommit
    dsimp only
    split
    · exact h
    · split
      · exact h
      · split
        · exact h
        · exact h.edit _ _
  case arbiterRead | numberingSet | cadencePut | cadenceStore | cadenceRead | cadenceClear =>
    simp only [State.carryArbiterRead, State.carryNumberingSet, State.carryCadencePut, State.carryCadenceStore,
      State.carryCadenceRead, State.carryCadenceClear]
    repeat' split
    all_goals exact h
  all_goals exact h

/-! ### The link -/

theorem answerFrame (h : s.linesCounted) (f : Frame) : (s.answerFrame f).1.linesCounted := by
  unfold State.answerFrame State.judge
  split
  · exact h
  · dsimp only
    split
    · split
      · exact h
      · exact h.carry _ _
    · exact h

theorem dispatch (h : s.linesCounted) (n : Nat) : (s.dispatch n).linesCounted := by
  induction n generalizing s with
  | zero => exact h
  | succ n ih =>
    unfold State.dispatch
    split
    · exact h
    · split
      · exact ih (answerFrame (s := s.updLink _) h _)
      · exact h

theorem transmit (h : s.linesCounted) : s.transmit.linesCounted := by
  unfold State.transmit State.choose
  split
  · exact h
  · split
    · exact h
    · split
      · exact h
      · unfold State.sendReport State.chosen
        split
        · split
          · exact edit (s := s.updLink _) h _ _
          · exact h
        all_goals exact h

theorem settleLink (h : s.linesCounted) : s.settleLink.linesCounted := ((h.dispatch _).transmit).dispatch _

end State.linesCounted

/-! ### The scan count -/

/-- The scan count is in range, and stands at 9 when a step event is due (R31). -/
def Timebase.counted (t : Timebase) : Prop := t.scanCount ≤ 9 ∧ (t.stepDue = true → t.scanCount = 9)

theorem Timebase.counted_of_scans {t u : Timebase} (h : u.scans = t.scans) (c : t.counted) : u.counted := by
  simp only [scans, Prod.mk.injEq] at h
  simpa only [counted, h] using c

theorem Timebase.pulse_scans (t : Timebase) : t.pulse.scans = t.scans := by
  unfold pulse
  split <;> rfl

theorem Timebase.scan_counted {t : Timebase} (c : t.counted) (l : LineNo) : (t.scan l).counted := by
  cases opens : t.opensPeriod l with
  | false =>
    rw [scan_joins t l opens]
    exact c
  | true =>
    by_cases early : t.scanCount < 9
    · rw [scan_counts t l opens early]
      exact ⟨early, fun due => absurd (c.2 due) (by omega)⟩
    · rw [scan_tenth t l opens early]
      exact ⟨c.1, fun _ => Nat.le_antisymm c.1 (Nat.not_lt.mp early)⟩

/-- A step event starts the count again (R31). -/
theorem Timebase.advance_counted (t : Timebase) : t.advance.1.counted := ⟨Nat.zero_le _, nofun⟩

/-! ### The law through every event -/

namespace State

variable {s t : State}

theorem countLaw_iff (s : State) : s.countLaw ↔ s.timebase.counted ∧ s.linesCounted := by
  constructor
  · rintro ⟨scans, due, lines⟩
    refine ⟨⟨scans, due⟩, fun l => ?_⟩
    obtain ⟨qualify, brk, make, pulse, test, window, away, play⟩ := lines l
    exact ⟨⟨qualify, brk, make, pulse⟩, test, window, away, play⟩
  · rintro ⟨⟨scans, due⟩, lines⟩
    refine ⟨scans, due, fun l => ?_⟩
    obtain ⟨⟨qualify, brk, make, pulse⟩, test, window, away, play⟩ := lines l
    exact ⟨qualify, brk, make, pulse, test, window, away, play⟩

namespace countLaw

theorem lines (h : s.countLaw) : s.linesCounted := ((countLaw_iff s).mp h).2

/-- An event that leaves the count of the scans alone. -/
theorem of_scans (h : s.countLaw) (scans : KeepsScans s t) (lines : t.linesCounted) : t.countLaw :=
  (countLaw_iff t).mpr ⟨Timebase.counted_of_scans scans ((countLaw_iff s).mp h).1, lines⟩

theorem settleLink (h : s.countLaw) : s.settleLink.countLaw := h.of_scans .settleLink h.lines.settleLink

theorem of_kept (h : s.countLaw) (k : Kept s t) (lines : t.linesCounted) : t.countLaw := h.of_scans (.of_kept k) lines

theorem linkFault (h : s.countLaw) (c : LinkFault) : (s.linkFault c).countLaw :=
  h.of_scans (.of_timebase (markDevice_timebase _ _ _)) (linesCounted.mark (s := s.updLink _) h.lines _ _ _)

theorem offer (h : s.countLaw) (f : Frame) : (s.offer f).countLaw := by
  unfold State.offer
  split
  · exact h
  · exact h.linkFault _

theorem receive (h : s.countLaw) (b : Byte) : (s.receive b).countLaw := by
  have taken : (s.updLink fun k => { k with receiver := (s.link.receiver.take b).1 }).countLaw := h
  unfold State.receive State.takeReceived
  dsimp only
  split
  · exact taken
  · exact taken.offer _
  · exact taken.linkFault _

theorem gapExpiry (h : s.countLaw) : s.gapExpiry.countLaw := by
  unfold State.gapExpiry
  split
  · exact linkFault (s := s.updLink _) h _
  · exact h

theorem stepTime (h : s.countLaw) (first held : List Work) : (s.stepTime first held).countLaw :=
  (countLaw_iff _).mpr ⟨by rw [stepTime_timebase]; exact Timebase.advance_counted _, h.lines.stepTime first held⟩

theorem takeOwed (h : s.countLaw) (l : LineNo) : (s.takeOwed l).countLaw := by
  unfold State.takeOwed
  split
  · exact (h.stepTime _ _).settleLink
  · exact h

theorem scanLine (h : s.countLaw) (l : LineNo) (r : Reading) : (s.scanLine l r).countLaw :=
  (countLaw_iff _).mpr ⟨by rw [scanLine_timebase]; exact Timebase.scan_counted ((countLaw_iff s).mp h).1 l,
    h.lines.scanLine l r⟩

theorem takeDue (h : s.countLaw) (w : Work) : (s.takeDue w).countLaw :=
  h.of_scans (.of_timebase (timebase_of_given (s := { s with due := s.due.erase w }) (doWork_given w _)))
    (linesCounted.doWork (s := { s with due := s.due.erase w }) h.lines w)

theorem runThrough (h : s.countLaw) (g : Stage) : (s.runThrough g).countLaw :=
  h.of_kept (Kept.runThrough g) (h.lines.runUpTo g 5)

theorem assertFault (h : s.countLaw) (c : Channel) : (s.assertFault c).countLaw := by
  have set : (s.updArb fun a => { a with faults := a.faults ||| channelBit c }).countLaw := h
  unfold State.assertFault
  exact set.of_kept ((Kept.suspendMany _ _).trans (Kept.markSupply _ _)) ((set.lines.suspendMany _ _).mark _ _ _)

theorem releaseFault (h : s.countLaw) (c : Channel) : (s.releaseFault c).countLaw := by
  have cleared : (s.updArb fun a => { a with faults := a.faults &&& ~~~(channelBit c) }).countLaw := h
  exact cleared.of_kept (Kept.markSupply _ _) (cleared.lines.mark _ _ _)

/-! ### Events -/

theorem finish (h : s.countLaw) : ∀ u, Machine.finish s = .next u → u.countLaw := by
  rintro u ⟨⟩
  exact h.settleLink

theorem occurring (h : s.countLaw) (b : Bool) (f : State → State) (keeps : (f s).countLaw) :
    ∀ u, Machine.occurring b f s = .next u → u.countLaw := by
  unfold Machine.occurring
  split
  · exact keeps.finish
  · rintro u ⟨⟩
    exact h

theorem scanning (h : s.countLaw) (finds : State → Bool) (l : LineNo) (r : Reading) :
    ∀ u, Machine.scanning finds l r s = .next u → u.countLaw := by
  unfold Machine.scanning
  split
  · exact ((h.takeOwed l).scanLine l r).finish
  · rintro u ⟨⟩
    exact h

end countLaw

end State

/-- Every event keeps the law of the counts. -/
theorem exec_countLaw (i : Instr) (s t : State) (law : s.countLaw) (h : exec i s = .next t) : t.countLaw := by
  cases i <;> simp only [exec, execOffHook, execOnHook, execDigitComplete, execPartyTestResult,
    execTrackingWindowClose, execRingTrip, execLeakComplete, execFsyncPulse] at h
  case hardReset straps =>
    cases h
    exact reset_countLaw
  case badKind kind tag p => exact law.occurring _ _ (law.offer _) t h
  case byteReceived b good => exact law.occurring _ _ (law.receive b) t h
  case gap => exact law.occurring _ _ law.gapExpiry t h
  case frameSent => exact law.occurring _ State.frameDone law t h
  case scan l r => exact ((law.takeOwed l).scanLine l r).finish t h
  case offHook l r => exact law.scanning _ l r t h
  case onHook l r => exact law.scanning _ l r t h
  case digitComplete l r => exact law.scanning _ l r t h
  case partyTestResult l r => exact law.scanning _ l r t h
  case trackingWindowClose l r => exact law.scanning _ l r t h
  case ringTrip l r => exact law.scanning _ l r t h
  case leakComplete l r => exact law.scanning _ l r t h
  case stepEvent first held => exact law.occurring _ _ (law.stepTime first held) t h
  case followerWindowUnmet first held => exact law.occurring _ _ (law.stepTime first held) t h
  case fsyncPulse =>
    exact (law.of_scans (t := s.updTimebase Timebase.pulse) (Timebase.pulse_scans _) law.lines).finish t h
  case callTimerExpiry l => exact law.occurring _ _ (law.takeDue _) t h
  case pendingAlarmStart l => exact law.occurring _ _ (law.takeDue _) t h
  case alarmCountEnd l => exact law.occurring _ _ (law.takeDue _) t h
  case planActivation l => exact law.occurring _ _ (law.takeDue _) t h
  case calibrationWaitLimit l => exact law.occurring _ _ (law.takeDue _) t h
  case eviction => exact law.occurring _ _ (law.runThrough _) t h
  case warmUpEnd => exact law.occurring _ _ (law.runThrough _) t h
  case queueWalk => exact law.occurring _ _ (law.runThrough _) t h
  case ringDelayed l => exact law.occurring _ _ (law.runThrough _) t h
  case standbyTimeout => exact law.occurring _ _ (law.runThrough _) t h
  case faultAssertion c => exact law.occurring _ _ (law.assertFault c) t h
  case faultRelease c => exact law.occurring _ _ (law.releaseFault c) t h
  case firstFaultSample inputs => exact law.occurring _ (State.updArb _) law t h
  all_goals exact (law.offer _).finish t h

end Sys2Proof.Machine

open Sys2Proof Sys2Proof.Machine

/-- Settles O60: every event keeps the law, and so does idling. -/
theorem countsStayInRange : Obligations.CountsStayInRange := by
  intro s t law h
  unfold step at h
  split at h
  · cases h
    exact law
  · next i rest _ => exact exec_countLaw i (s.withPending rest) t law h
end

section
/-! Which reports of a line a piece of work leaves as they stand (R186), and that what an event left behind in its reports
stands through later work that leaves the line's call alone. -/

namespace Sys2Proof.Machine

/-- From `s` to `t` the report of kind `k` of line `l` is as it was: its data, and whether it is pending. -/
structure SameReport (k : ReportKind) (l : LineNo) (s t : State) : Prop where
  slot : (t.link.slots.get (State.lineEntry l)).get k.idx = (s.link.slots.get (State.lineEntry l)).get k.idx
  pending : kindIn k (t.link.pendingSets.get (State.lineEntry l)) = kindIn k (s.link.pendingSets.get (State.lineEntry l))

namespace SameReport

variable {s t u : State} {k : ReportKind} {l : LineNo}

theorem refl (k : ReportKind) (l : LineNo) (s : State) : SameReport k l s s := ⟨rfl, rfl⟩

theorem trans (h : SameReport k l s t) (g : SameReport k l t u) : SameReport k l s u :=
  ⟨g.slot.trans h.slot, g.pending.trans h.pending⟩

theorem of_link (h : t.link = s.link) : SameReport k l s t := ⟨by rw [h], by rw [h]⟩

theorem markLine {j : ReportKind} (d : List Byte) (other : k ≠ j) : SameReport k l s (s.markLine j l d) :=
  ⟨State.mark_slot_ne _ _ _ _ _ _ (.inl other), State.mark_pending_ne _ _ _ _ _ _ (.inl other)⟩

theorem markDevice (j : ReportKind) (d : List Byte) : SameReport k l s (s.markDevice j d) :=
  ⟨State.mark_slot_ne _ _ _ _ _ _ (.inr (State.lineEntry_ne_device l)),
    State.mark_pending_ne _ _ _ _ _ _ (.inr (State.lineEntry_ne_device l))⟩

/-- A marked report stands. -/
theorem marked (h : SameReport k l s t) {m : BitVec 14} {d : List Byte} (marked : s.marked m k l d) : t.marked m k l d := by
  intro on
  rw [h.slot, h.pending]
  exact marked on

theorem standbyEvent (ev : StandbyEvent) : SameReport k l s (s.standbyEvent ev) := by
  have reloaded : SameReport k l s (s.reloadStandby ev) := by
    unfold State.reloadStandby
    split <;> exact of_link rfl
  unfold State.standbyEvent
  dsimp only
  split
  · exact reloaded.trans (SameReport.trans (t := (s.reloadStandby ev).updArb _) (of_link rfl) (markDevice _ _))
  · exact reloaded

theorem enter (new : CallState) (other : k ≠ .state) : SameReport k l s (s.enter l new) := by
  unfold State.enter
  dsimp only
  split
  · exact of_link rfl
  · exact SameReport.trans (t := s.putCall l new) (of_link rfl) (markLine _ other)

theorem placeEntry (e : Entry) (φ : Nat) (other : k ≠ .ring) : SameReport k l s (s.placeEntry l e φ) := by
  have placed : ∀ u : State, u.link = s.link → SameReport k l s ((u.placementNotice l e).leftQueue l) := fun u same => by
    unfold State.placementNotice
    split <;> exact of_link same
  unfold State.placeEntry
  dsimp only
  split
  · exact (placed (s.updArb _) rfl).trans (markLine _ other)
  · exact placed (s.updArb _) rfl

theorem request (e : Entry) (other : k ≠ .ring) : SameReport k l s (s.request l e) := by
  have entered : SameReport k l s ((s.setRow l (some e)).standbyEvent .request) :=
    SameReport.trans (t := s.setRow l (some e)) (of_link rfl) (standbyEvent _)
  have joined : ∀ u : State, SameReport k l u (u.joinWaiting l) := fun u => by
    unfold State.joinWaiting
    split <;> exact of_link rfl
  refine entered.trans ?_
  unfold State.request State.tryAdmission
  split
  · split
    · exact placeEntry _ _ other
    · exact joined _
  · exact joined _

end SameReport

/-! ### Work that leaves the call of a line alone -/

/-- From `s` to `t` line `l` is as it was but for its tracking window, its row is as it was, and of its reports only FLASH
may be marked. -/
structure CallStands (l : LineNo) (s t : State) : Prop where
  line : t.line l = { s.line l with track := (t.line l).track }
  row : t.row l = s.row l
  reports : ∀ k, k ≠ .flash → SameReport k l s t

namespace CallStands

variable {s c t u : State} {l : LineNo}

theorem refl (l : LineNo) (s : State) : CallStands l s s := ⟨rfl, rfl, fun _ _ => .refl _ _ _⟩

theorem trans (h : CallStands l s t) (g : CallStands l t u) : CallStands l s u :=
  ⟨by rw [g.line, h.line], g.row.trans h.row, fun k other => (h.reports k other).trans (g.reports k other)⟩

/-- An end of the tracking window. -/
theorem withTrack (l : LineNo) (w : Tracking) (s : State) :
    CallStands l s (s.updLine l fun x => { x with track := w }) :=
  ⟨by simp, rfl, fun _ _ => .of_link rfl⟩

theorem markFlash (d : List Byte) : CallStands l s (s.markLine .flash l d) :=
  ⟨by simp, by simp, fun _ other => .markLine _ other⟩

theorem marked (h : CallStands l c t) {m : BitVec 14} {k : ReportKind} {d : List Byte} (marked : c.marked m k l d)
    (other : k ≠ .flash) : t.marked m k l d := (h.reports k other).marked marked

theorem tells (h : CallStands l c t) {cause : Option EndCause} (told : s.tells c l cause) : s.tells t l cause := by
  unfold State.tells
  rw [h.line]
  exact h.marked told (by decide)

theorem ends (h : CallStands l c t) {r : Record} {ds : DigitBuffer} {cause : EndCause} (ended : s.ends c l r ds cause) :
    s.ends t l r ds cause := by
  obtain ⟨record, completed, marked⟩ := ended
  exact ⟨by rw [h.line, record], by rw [h.line, completed], h.marked marked (by decide)⟩

theorem runReported (h : CallStands l c t) {r : Run} (reported : s.runReported c l r) : s.runReported t l r := by
  unfold State.runReported
  rw [h.line]
  exact h.marked reported (by decide)

theorem runFailed (h : CallStands l c t) {r : Run} {cause : CalCause} (failed : s.runFailed c l r cause) :
    s.runFailed t l r cause where
  status := by rw [h.line]; exact failed.status
  closed := by rw [h.line, h.row]; exact failed.closed
  kept := by rw [h.line]; exact failed.kept
  report := h.runReported failed.report

theorem revertJudged (h : CallStands l c t) {rec : Record} {ds : DigitBuffer} {called : Option (LineNo × Slot)}
    (judged : s.revertJudged c l rec ds called) : s.revertJudged t l rec ds called := by
  have call : (t.line l).call = (c.line l).call := by rw [h.line]
  have timer : (t.line l).timer = (c.line l).timer := by rw [h.line]
  have record : (t.line l).record = (c.line l).record := by rw [h.line]
  unfold State.revertJudged at judged ⊢
  dsimp only at judged ⊢
  rw [call, timer, record]
  obtain ⟨barred, unassigned, elsewhere, own⟩ := judged
  have fails : ∀ {p q : Prop} {r : Record} {cause : EndCause}, p ∧ q ∧ s.ends c l r ds cause ∧ s.tells c l (some cause) →
      p ∧ q ∧ s.ends t l r ds cause ∧ s.tells t l (some cause) :=
    fun ⟨hp, hq, ended, told⟩ => ⟨hp, hq, h.ends ended, h.tells told⟩
  refine ⟨fun off => fails (barred off), fun on none' => fails (unassigned on none'),
    fun m i on some' other => fails (elsewhere m i on some' other), fun i on some' => ?_⟩
  obtain ⟨refused, self, unloaded, taken⟩ := own i on some'
  exact ⟨fun a => fails (refused a), fun a b => fails (self a b), fun a b d => fails (unloaded a b d),
    fun a b d => have ⟨tone, told, rest⟩ := taken a b d; ⟨tone, h.tells told, rest⟩⟩

end CallStands

end Sys2Proof.Machine
end

section
/-! What the operations shared by the call blocks leave of the lines, the rows and the arbiter: standby events (R139),
requests (R125, R130), records (R92), a written baseline (R58) and the failure of a run (R172). -/

namespace Sys2Proof.Machine.State

variable {s : State} {l : LineNo}

/-! ### Standby events -/

@[simp] theorem line_standbyEvent (ev : StandbyEvent) (m : LineNo) (s : State) : (s.standbyEvent ev).line m = s.line m := by
  unfold standbyEvent reloadStandby wakeSupply markSupply
  dsimp only
  split <;> split <;> simp

@[simp] theorem row_standbyEvent (ev : StandbyEvent) (m : LineNo) (s : State) : (s.standbyEvent ev).row m = s.row m := by
  unfold standbyEvent reloadStandby wakeSupply markSupply
  dsimp only
  split <;> split <;> simp [row]

/-- The condition under which an OFFHOOK or DIGIT event wakes the supply (R139). -/
theorem wakes_iff (a : Arbiter) {ev : StandbyEvent} (h : ev ≠ .request) :
    a.wakes ev = true ↔ a.supply = .standby ∧ a.wakeMask.getLsbD ev.bit = true := by
  cases ev <;> simp_all [Arbiter.wakes]

theorem reloadStandby_arb (ev : StandbyEvent) (s : State) : (s.reloadStandby ev).arb =
    { s.arb with standbyCount := if s.arb.reloadMask.getLsbD ev.bit then s.arb.standbyFrames else s.arb.standbyCount } := by
  unfold reloadStandby
  split <;> rfl

theorem reloadStandby_link (ev : StandbyEvent) (s : State) : (s.reloadStandby ev).link = s.link := by
  unfold reloadStandby
  split <;> rfl

theorem reloadStandby_stamp (ev : StandbyEvent) (s : State) : (s.reloadStandby ev).stamp = s.stamp := by
  unfold reloadStandby
  split <;> rfl

/-- An OFFHOOK or DIGIT event as the arbiter takes it, with the report of a supply that it wakes (R139, R141, R143). -/
theorem standbyEvent_taken {ev : StandbyEvent} (h : ev ≠ .request) (s : State) :
    s.standbyTaken (s.standbyEvent ev) ev.bit := by
  have cond : (s.reloadStandby ev).arb.wakes ev = true ↔ s.arb.supply = .standby ∧ s.arb.wakeMask.getLsbD ev.bit = true := by
    rw [wakes_iff _ h, reloadStandby_arb]
  by_cases wakes : s.arb.supply = .standby ∧ s.arb.wakeMask.getLsbD ev.bit = true
  · have woken : s.standbyEvent ev = (s.reloadStandby ev).wakeSupply := if_pos (cond.mpr wakes)
    rw [woken]
    refine ⟨?_, fun _ _ on => ?_⟩
    · simp only [wakeSupply, markSupply, markDevice_arb, updArb_arb, reloadStandby_arb, Arbiter.afterStandby, if_pos wakes]
    · simp only [wakeSupply, markSupply, markDevice]
      rw [updArb_arb, stamp_updArb, reloadStandby_stamp, reloadStandby_arb]
      refine ⟨mark_slot_self _ _ _ _ ?_, mark_pending_self _ _ _ _ ?_⟩ <;> rwa [updArb_link, reloadStandby_link]
  · have quiet : s.standbyEvent ev = s.reloadStandby ev := if_neg (cond.not.mpr wakes)
    rw [quiet]
    refine ⟨?_, fun standby woken => absurd ⟨standby, woken⟩ wakes⟩
    rw [reloadStandby_arb]
    simp only [Arbiter.afterStandby, if_neg wakes]

/-! ### Requests -/

/-- A request leaves the line of an entry that is no TEST entry as it is (R125). -/
theorem line_request {e : Entry} (h : e.reqType ≠ .test) (m : LineNo) (s : State) : (s.request l e).line m = s.line m := by
  unfold request tryAdmission joinWaiting
  split
  · split
    · rw [line_placeEntry, if_neg (fun both => h both.2)]
      simp
    · split <;> simp
  · split <;> simp

/-- A request touches of its line the run alone, which the placement of a TEST entry takes to RING (R125, R166). -/
theorem line_request_self (l : LineNo) (e : Entry) (s : State) :
    (s.request l e).line l = { s.line l with run := ((s.request l e).line l).run } := by
  unfold request tryAdmission joinWaiting
  split
  · split
    · rw [line_placeEntry]
      split <;> simp
    · split <;> simp
  · split <;> simp

/-- The entry of a request waits or is placed at once (R125, R129, R130). -/
theorem row_request (l : LineNo) (e : Entry) (s : State) :
    (s.request l e).row l = some e ∨ ∃ φ, (s.request l e).row l = some (e.placedAt φ) := by
  have entered : ((s.setRow l (some e)).standbyEvent .request).row l = some e := by simp
  have waits : ∀ u : State, u.row l = some e → (u.joinWaiting l).row l = some e := fun u h => by
    unfold joinWaiting
    split <;> exact h
  unfold request tryAdmission
  split
  · split
    · next φ _ => exact .inr ⟨φ, by rw [row_placeEntry, if_pos rfl]⟩
    · exact .inl (waits _ entered)
  · exact .inl (waits _ entered)

/-! ### Records -/

@[simp] theorem line_updRecord (l : LineNo) (f : Record → Record) (s : State) :
    (s.updRecord l f).line l = { s.line l with record := (s.line l).record.map f } := by simp [updRecord]

@[simp] theorem row_updRecord (l m : LineNo) (f : Record → Record) (s : State) : (s.updRecord l f).row m = s.row m := rfl

@[simp] theorem line_markAnswer (l k : LineNo) (m : Manner) (s : State) : (s.markAnswer l m).line k = s.line k := by
  unfold markAnswer
  split <;> simp

@[simp] theorem row_markAnswer (l k : LineNo) (m : Manner) (s : State) : (s.markAnswer l m).row k = s.row k := by
  unfold markAnswer
  split <;> simp

/-! ### A written baseline -/

/-- The line with a baseline written and LEAKY judged (R58). -/
theorem line_writeBaseline (l : LineNo) (b : Nat) (s : State) : (s.writeBaseline l b).line l =
    { s.line l with baseline := b, leaky := leakyAfter (s.line l).leakLimit b (s.line l).leaky } := by
  unfold writeBaseline markLineFault
  dsimp only
  split <;> simp

@[simp] theorem row_writeBaseline (l m : LineNo) (b : Nat) (s : State) : (s.writeBaseline l b).row m = s.row m := by
  unfold writeBaseline markLineFault
  dsimp only
  split <;> simp

@[simp] theorem writeBaseline_arb (l : LineNo) (b : Nat) (s : State) : (s.writeBaseline l b).arb = s.arb := by
  unfold writeBaseline markLineFault
  dsimp only
  split <;> simp

/-- A baseline that leaves LEAKY as it was marks nothing (R58). -/
theorem writeBaseline_link {b : Nat} (h : leakyAfter (s.line l).leakLimit b (s.line l).leaky = (s.line l).leaky) :
    (s.writeBaseline l b).link = s.link := by
  simp [writeBaseline, h]

/-- A change of LEAKY is reported (R58). -/
theorem writeBaseline_marked {b : Nat} (h : leakyAfter (s.line l).leakLimit b (s.line l).leaky ≠ (s.line l).leaky) :
    (s.writeBaseline l b).marked s.link.mask .lineFault l
      [lineByte l, if ((s.writeBaseline l b).line l).leaky then 2 else 3, flagByte (s.line l).fitted,
        flagByte ((s.writeBaseline l b).line l).leaky] := by
  have code : ∀ x : Bool, (if x then LineFaultCause.leakySet else .leakyCleared).code = if x then (2 : Byte) else 3 := by
    decide
  rw [line_writeBaseline]
  unfold writeBaseline
  simp only [if_neg h, markLineFault, line_updLine, if_pos, code]
  exact markLine_marked .lineFault l _ (s.updLine l _)

/-! ### Failure of a run -/

section

variable {r : Run} (c : CalCause) (h : (s.line l).run = some r)

include h

/-- The failure of a run begins with the removal of the line's entry, which leaves no other entry to remove (R172). -/
theorem failRun_removed : (s.removeEntry l).failRun l c = s.failRun l c := by
  have again : (s.removeEntry l).removeEntry l = s.removeEntry l := removeEntry_of_none (row_removeEntry l s)
  simp [failRun, h, again]

theorem line_failRun_of_run : (s.failRun l c).line l =
    { s.line l with
      play := if s.row l = none then (s.line l).play else none
      calStatus := .failed, calCause := some c, run := none } := by
  rw [← failRun_removed c h, line_failRun c (row_removeEntry l s), line_removeEntry]
  simp [h]

theorem row_failRun_of_run : (s.failRun l c).row l = none := by
  rw [← failRun_removed c h, row_failRun c (row_removeEntry l s)]

/-- What the failure of a run leaves (R172). -/
theorem failRun_runFailed : s.runFailed (s.failRun l c) l r c where
  status := by simp [line_failRun_of_run c h]
  closed := by simp [line_failRun_of_run c h, row_failRun_of_run c h]
  kept := by simp [line_failRun_of_run c h]
  report := by
    have reported := failRun_reported (s := s.removeEntry l) (r := r) c (row_removeEntry l s) (by simp [h])
    unfold runReported at reported ⊢
    rwa [failRun_removed c h, removeEntry_link, (Kept.removeEntry l).stamp] at reported

theorem failToIdle_of_run : s.failToIdle l c = (s.failRun l c).enter l .idle := by simp [failToIdle, h]

/-- The line of a run that failed and went to IDLE (R172). -/
theorem line_failToIdle : (s.failToIdle l c).line l =
    { s.line l with
      play := if s.row l = none then (s.line l).play else none
      calStatus := .failed, calCause := some c, run := none, call := .idle, timer := none, dialBegun := false } := by
  rw [failToIdle_of_run c h, line_enter, line_failRun_of_run c h, Line.trackAfter_idle]
  rfl

theorem row_failToIdle : (s.failToIdle l c).row l = none := by
  rw [failToIdle_of_run c h, row_enter, row_failRun_of_run c h]

theorem failToIdle_runFailed : s.runFailed (s.failToIdle l c) l r c where
  status := by simp [line_failToIdle c h]
  closed := by simp [line_failToIdle c h, row_failToIdle c h]
  kept := by simp [line_failToIdle c h]
  report := by
    have same : calibrationData l ((s.failToIdle l c).line l) r s.stamp
        = calibrationData l ((s.failRun l c).line l) r s.stamp := by
      rw [line_failToIdle c h, line_failRun_of_run c h]
      rfl
    unfold runReported
    rw [same, failToIdle_of_run c h]
    exact (SameReport.enter .idle (by decide)).marked (failRun_runFailed c h).report

theorem failToIdle_tells (away : (s.line l).call ≠ .idle) : s.tells (s.failToIdle l c) l none := by
  have kept : Kept s (s.failRun l c) := Kept.failRun l c
  have call : ((s.failRun l c).line l).call = (s.line l).call := by rw [line_failRun_of_run c h]
  rw [failToIdle_of_run c h]
  exact tells_of_before (enter_tells (by rwa [call])) kept.stamp kept.mask call

end

/-- A run failed from a state that the event has led to has failed from the state that the event found. -/
theorem runFailed_of_before {v t : State} {r q : Run} {c : CalCause} (h : v.runFailed t l q c) (stamp : v.stamp = s.stamp)
    (mask : v.link.mask = s.link.mask) (baseline : (v.line l).baseline = (s.line l).baseline)
    (loads : (v.line l).loads = (s.line l).loads) (threshold : (v.line l).tripThreshold = (s.line l).tripThreshold)
    (same : calibrationData l (t.line l) q s.stamp = calibrationData l (t.line l) r s.stamp) : s.runFailed t l r c where
  status := h.status
  closed := h.closed
  kept := by rw [← baseline, ← loads, ← threshold]; exact h.kept
  report := by
    have report := h.report
    unfold runReported at report ⊢
    rwa [stamp, mask, same] at report

end Sys2Proof.Machine.State
end

section
/-! A scan of a fitted line in its time (R41): which part of the supervisor takes it, what it leaves of the tracking window
(R56), and the rows of the command table that name it by what it finds (log 4, 5). -/

namespace Sys2Proof.Machine

namespace State

variable {s : State} {l : LineNo} {r : Reading}

/-! ### The parts of a scan -/

/-- A line whose hook machine is not suspended (R50). -/
theorem watched_suspended (h : s.watched l r) : (s.line l).suspended = false := by
  obtain ⟨_, _, _, disabled, test, testing, ringing⟩ := h
  simp [Line.suspended, disabled, test, testing, ringing]

theorem ringing_eq_false_iff (x : Line) : x.ringing = false ↔ ∀ p, x.play = some p → p.drive = none := by
  unfold Line.ringing
  cases x.play <;> simp

/-- A line with no party test and no ringing is left to its hook machine (R41). -/
theorem loopScan_quiet (r : Reading) (testing : (s.line l).test.running = false) (ringing : (s.line l).ringing = false) :
    s.loopScan l r = if (s.line l).suspended then s else s.hookScan l r := by
  have silent := (ringing_eq_false_iff _).mp ringing
  unfold loopScan
  simp only [testing]
  split
  · contradiction
  · split
    · next p playing => simp [silent p playing]
    · rfl

/-- The state of the scan when the hook machine has moved to `k`, before the call controller takes what it hands on. -/
def hookMoved (l : LineNo) (k : Hook) (s : State) : State := (s.countScan l).updLine l fun x => { x with hook := k }

@[simp] theorem line_hookMoved (l : LineNo) (k : Hook) (s : State) :
    (s.hookMoved l k).line l = { s.line l with hook := k } := by simp [hookMoved]

@[simp] theorem row_hookMoved (l m : LineNo) (k : Hook) (s : State) : (s.hookMoved l k).row m = s.row m := rfl

@[simp] theorem hookMoved_arb (l : LineNo) (k : Hook) (s : State) : (s.hookMoved l k).arb = s.arb := rfl

@[simp] theorem hookMoved_link (l : LineNo) (k : Hook) (s : State) : (s.hookMoved l k).link = s.link := rfl

@[simp] theorem hookMoved_settings (l : LineNo) (k : Hook) (s : State) : (s.hookMoved l k).settings = s.settings := rfl

@[simp] theorem hookMoved_stamp (l : LineNo) (k : Hook) (s : State) : (s.hookMoved l k).stamp = s.stamp :=
  stamp_countScan l s

/-- The call controller takes what the hook machine hands on, in order (R41, R49). -/
def handItems (l : LineNo) (items : List HookItem) (s : State) : State := items.foldl (fun t i => t.handItem l i) s

@[simp] theorem handItems_nil (l : LineNo) (s : State) : s.handItems l [] = s := rfl

@[simp] theorem handItems_cons (l : LineNo) (i : HookItem) (is : List HookItem) (s : State) :
    s.handItems l (i :: is) = (s.handItem l i).handItems l is := rfl

/-- The part of a scan that the hook machine takes: its move, and then what it hands on (R41, R49). -/
theorem loopScan_awake (r : Reading) (testing : (s.line l).test.running = false) (ringing : (s.line l).ringing = false)
    (awake : (s.line l).suspended = false) : s.loopScan l r =
      (s.updLine l fun x => { x with hook := ((s.line l).hookMove r).1 }).handItems l ((s.line l).hookMove r).2 := by
  rw [loopScan_quiet r testing ringing, awake]
  rfl

/-- A scan that reaches the hook machine, with its count (R31, R41, R49). -/
theorem loopScan_watched (h : s.watched l r) : (s.countScan l).loopScan l r =
    (s.hookMoved l ((s.line l).hookMove r).1).handItems l ((s.line l).hookMove r).2 := by
  have awake := watched_suspended h
  obtain ⟨_, _, _, _, _, testing, ringing⟩ := h
  exact loopScan_awake (s := s.countScan l) r testing ringing awake

theorem scanLine_fitted (fitted : (s.line l).fitted = true) (present : r.present = true) :
    s.scanLine l r = (s.countScan l).fittedScan l r := by simp [scanLine, fitted, present]

/-- A scan of a fitted line changes of the part what is the line's, and the count of the scans (R31, R41). -/
theorem scanLine_onlyLine (fitted : (s.line l).fitted = true) (present : r.present = true) :
    s.OnlyLine l (s.scanLine l r) := by
  rw [scanLine_fitted fitted present]
  have kept : Kept (s.countScan l) ((s.countScan l).fittedScan l r) := Kept.fittedScan l r
  have alone : Local l (s.countScan l) ((s.countScan l).fittedScan l r) := Local.fittedScan l r
  exact ⟨.of_scan kept.given, kept.arb, kept.link, kept.plan l, alone.line, alone.row⟩

/-! ### Tracking and LEAK -/

theorem leakScan_of_none (reading : Nat) (h : (s.line l).run = none) : s.leakScan l reading = s := by
  simp [leakScan, h]

theorem trackScan_of_not {judged : Bool} (reading : Nat) (h : (s.line l).tracks judged = false) :
    s.trackScan l judged reading = s.updLine l fun x => { x with track := ⟨0, 0⟩ } := by
  simp only [trackScan, h]
  rfl

/-- The line tracks in IDLE and ONHOOK, at a scan that the hook machine judged (R56). -/
theorem tracks_iff (x : Line) (judged : Bool) :
    x.tracks judged = true ↔ judged = true ∧ x.call = .idle ∧ x.hook.state = .onhook := by
  simp [Line.tracks, and_assoc]

/-- A scan that is no tracking scan, of a line with no run after it: its window is discarded, and that is all (R56). -/
theorem fittedScan_untracked (run : ((s.loopScan l r).line l).run = none)
    (untracked : ((s.loopScan l r).line l).tracks (!(s.line l).suspended) = false) :
    s.fittedScan l r = (s.loopScan l r).updLine l fun x => { x with track := ⟨0, 0⟩ } := by
  rw [fittedScan, trackScan_of_not r.loop untracked, leakScan_of_none]
  simpa using run

/-- What a scan that discards the window leaves: the state of its loop work, the window apart. -/
theorem scanLine_untracked {v : State} (fitted : (s.line l).fitted = true) (present : r.present = true)
    (loop : (s.countScan l).loopScan l r = v) (run : (v.line l).run = none)
    (untracked : (v.line l).tracks (!(s.line l).suspended) = false) :
    s.scanLine l r = v.updLine l fun x => { x with track := ⟨0, 0⟩ } := by
  subst loop
  rw [scanLine_fitted fitted present]
  exact fittedScan_untracked run untracked

/-! ### The rows named by what a scan finds -/

theorem exec_scan (paced : s.paced l) : exec (.scan l r) s = .next (s.scanLine l r).settleLink :=
  execScan_of_paced r paced

theorem scanning_found {finds : State → Bool} (paced : s.paced l) (found : finds s = true) :
    scanning finds l r s = .next (s.scanLine l r).settleLink := by
  rw [scanning_of_paced finds r paced, if_pos found]
  rfl

/-- The items that the hook machine hands on at a scan that reaches it (R49). -/
theorem itemsAt_watched (h : s.watched l r) : (s.line l).itemsAt r = ((s.line l).hookMove r).2 := by
  have awake := watched_suspended h
  obtain ⟨_, fitted, present, _⟩ := h
  simp [Line.itemsAt, Line.judgedScan, fitted, present, awake]

end State

end Sys2Proof.Machine
end

section
/-! The hook machine (R42 to R48): its moves, state by state, and that nothing after the move changes the machine but a ring
trip or a restart. -/

namespace Sys2Proof.Machine

/-! ### The moves -/

/-- A completed digit of 1 to 9 pulses, or of ten, which is the digit 0 (R48). -/
theorem digitOf_digit {d : Digit} {k : Nat} (h : (d ≠ 0 ∧ k = d.val) ∨ (d = 0 ∧ k = 10)) : digitOf k = .digit d := by
  rcases h with ⟨_, rfl⟩ | ⟨rfl, rfl⟩
  · have le : d.val ≤ 9 := by omega
    have same : Fin.ofNat 10 d.val = d := Fin.ext (Nat.mod_eq_of_lt d.isLt)
    rw [digitOf, if_pos le, same]
  · rfl

theorem digitOf_error {k : Nat} (h : 10 < k) : digitOf k = .digitError := by
  rw [digitOf, if_neg (by omega), if_neg (by omega)]

theorem Hook.closed_counting {m pulse : Nat} (h : m ≠ 30) : Hook.closed m pulse = (⟨.offhook, 0, 0, m, pulse⟩, []) :=
  if_neg (fun both => h both.1)

theorem Hook.closed_silent {m pulse : Nat} (h : pulse = 0) : Hook.closed m pulse = (⟨.offhook, 0, 0, m, pulse⟩, []) :=
  if_neg (fun both => by omega)

theorem Hook.closed_digit {pulse : Nat} (h : 1 ≤ pulse) :
    Hook.closed 30 pulse = (⟨.offhook, 0, 0, 30, 0⟩, [digitOf pulse]) := if_pos ⟨rfl, h⟩

namespace Hook

variable {h : Hook} (n : Nat)

theorem scan_onhook_rest (st : h.state = .onhook) : h.scan false n = (h, []) := by simp [scan, st]

theorem scan_onhook_make (st : h.state = .onhook) : h.scan true n = ({ h with state := .qualify, qualify := 1 }, []) := by
  simp [scan, st]

theorem scan_qualify_fails (st : h.state = .qualify) :
    h.scan false n = ({ h with state := .onhook, qualify := 0 }, []) := by simp [scan, st]

theorem scan_qualify_counts (st : h.state = .qualify) (lt : h.qualify + 1 < n) :
    h.scan true n = ({ h with qualify := h.qualify + 1 }, []) := by simp [scan, st, lt]

theorem scan_qualify_done (st : h.state = .qualify) (le : n ≤ h.qualify + 1) :
    h.scan true n = ({ h with state := .offhook, qualify := 0, make := 0, pulse := 0 }, [.offHook]) := by
  simp [scan, st, Nat.not_lt.mpr le]

theorem scan_offhook_break (st : h.state = .offhook) : h.scan false n = ({ h with state := .brk, brk := 1 }, []) := by
  simp [scan, st]

theorem scan_offhook_make (st : h.state = .offhook) (lt : h.make < 30) :
    h.scan true n = closed (h.make + 1) h.pulse := by simp [scan, st, lt]

theorem scan_offhook_full (st : h.state = .offhook) (full : h.make = 30) : h.scan true n = (h, []) := by
  simp [scan, st, full]

theorem scan_break_counts (st : h.state = .brk) (lt : h.brk < 89) :
    h.scan false n = ({ h with brk := h.brk + 1 }, []) := by simp [scan, st, Nat.not_le.mpr lt]

theorem scan_break_ends (st : h.state = .brk) (last : h.brk = 89) :
    h.scan false n = (⟨.onhook, 0, 0, 0, 0⟩, [.onHook]) := by simp [scan, st, last]

theorem scan_break_make (st : h.state = .brk) : h.scan true n = h.endBreak h.brk := by simp [scan, st]

theorem endBreak_full {b : Nat} (hit : b ≤ 2) (full : h.make = 30) :
    h.endBreak b = (⟨.offhook, 0, 0, 30, h.pulse⟩, []) := by simp [endBreak, hit, full]

/-- A hit is counted into the make scans (R47). -/
theorem endBreak_hit {b : Nat} (hit : b ≤ 2) (lt : h.make < 30) :
    h.endBreak b = closed (min 30 (h.make + b + 1)) h.pulse := by simp [endBreak, hit, lt]

theorem endBreak_pulse {b : Nat} (lo : 3 ≤ b) (hi : b ≤ 10) :
    h.endBreak b = (⟨.offhook, 0, 0, 1, min 11 (h.pulse + 1)⟩, [.pulse]) := by
  rw [endBreak, if_neg (by omega), if_pos hi]

theorem endBreak_flash {b : Nat} (lo : 11 ≤ b) (silent : h.pulse = 0) :
    h.endBreak b = (⟨.offhook, 0, 0, 1, 0⟩, [.flash]) := by
  rw [endBreak, if_neg (by omega), if_neg (by omega), if_neg (by omega)]

theorem endBreak_digit_flash {b : Nat} (lo : 11 ≤ b) (dialled : 1 ≤ h.pulse) :
    h.endBreak b = (⟨.offhook, 0, 0, 1, 0⟩, [digitOf h.pulse, .flash]) := by
  rw [endBreak, if_neg (by omega), if_neg (by omega), if_pos dialled]

theorem endBreak_offhook (b : Nat) : (h.endBreak b).1.state = .offhook := by
  unfold endBreak closed
  split
  · split
    · split <;> rfl
    · rfl
  · split
    · rfl
    · split <;> rfl

/-- A make scan never leaves the machine ONHOOK (R44 to R47). -/
theorem scan_make_state (h : Hook) (n : Nat) : (h.scan true n).1.state ≠ .onhook := by
  cases st : h.state with
  | onhook => rw [scan_onhook_make n st]; nofun
  | qualify =>
    by_cases lt : h.qualify + 1 < n
    · rw [scan_qualify_counts n st lt, st]; nofun
    · rw [scan_qualify_done n st (Nat.not_lt.mp lt)]; nofun
  | offhook =>
    by_cases lt : h.make < 30
    · rw [scan_offhook_make n st lt]
      unfold closed
      split <;> nofun
    · have stays : h.scan true n = (h, []) := by simp [scan, st, lt]
      rw [stays, st]; nofun
  | brk => rw [scan_break_make n st, endBreak_offhook]; nofun

/-- A machine that hands on a pulse notice or a flash stands in OFFHOOK (R47). -/
theorem scan_offhook_of_pulse (h : Hook) (make : Bool) (n : Nat)
    (handed : (h.scan make n).2 = [.pulse] ∨ (h.scan make n).2 = [.flash]) : (h.scan make n).1.state = .offhook := by
  cases make with
  | false =>
    unfold scan at handed
    cases st : h.state <;> simp only [st] at handed
    case onhook | qualify | offhook => simp at handed
    case brk => split at handed <;> simp at handed
  | true =>
    cases st : h.state with
    | onhook => simp [scan_onhook_make n st] at handed
    | qualify =>
      by_cases lt : h.qualify + 1 < n
      · simp [scan_qualify_counts n st lt] at handed
      · simp [scan_qualify_done n st (Nat.not_lt.mp lt)]
    | offhook =>
      by_cases lt : h.make < 30
      · rw [scan_offhook_make n st lt]
        unfold closed
        split <;> rfl
      · have stays : h.scan true n = (h, []) := by simp [scan, st, lt]
        rw [stays, st]
    | brk => rw [scan_break_make n st, endBreak_offhook]

end Hook

/-! ### The machine through the call controller's work -/

/-- From `s` to `t` the hook machine of line `l` is as it was. -/
def SameHook (l : LineNo) (s t : State) : Prop := (t.line l).hook = (s.line l).hook

namespace SameHook

variable {s t u : State} {l : LineNo}

theorem refl (l : LineNo) (s : State) : SameHook l s s := rfl

theorem trans (h : SameHook l s t) (k : SameHook l t u) : SameHook l s u := Eq.trans k h

theorem of_line (h : t.line l = s.line l) : SameHook l s t := congrArg Line.hook h

theorem updLine (f : Line → Line) (h : (f (s.line l)).hook = (s.line l).hook) : SameHook l s (s.updLine l f) := by
  simp [SameHook, h]

theorem markLine (k : ReportKind) (m : LineNo) (d : List Byte) : SameHook l s (s.markLine k m d) := of_line (by simp)

theorem standbyEvent (ev : StandbyEvent) : SameHook l s (s.standbyEvent ev) := of_line (by simp)

theorem removeEntry : SameHook l s (s.removeEntry l) := by simp [SameHook]

theorem request (e : Entry) : SameHook l s (s.request l e) := by
  unfold SameHook
  rw [State.line_request_self]

theorem enter (new : CallState) : SameHook l s (s.enter l new) := by simp [SameHook, State.line_enter]

theorem endCall (new : CallState) (c : EndCause) : SameHook l s (s.endCall l new c) := by
  simp [SameHook, State.line_endCall]

theorem updRecord (f : Record → Record) : SameHook l s (s.updRecord l f) := by simp [SameHook]

theorem markAnswer (m : Manner) : SameHook l s (s.markAnswer l m) := of_line (by simp)

theorem originate : SameHook l s (s.originate l) := by
  unfold State.originate State.openCall
  exact ((updLine _ rfl).trans (updLine _ rfl)).trans ((enter _).trans (standbyEvent _))

theorem failRun (c : CalCause) : SameHook l s (s.failRun l c) := by
  cases h : (s.line l).run with
  | none => rw [State.failRun_of_none c h]; exact refl l s
  | some r => simp [SameHook, State.line_failRun_of_run c h]

theorem failToIdle (c : CalCause) : SameHook l s (s.failToIdle l c) := by
  unfold State.failToIdle
  split
  · exact refl l s
  · exact (failRun c).trans (enter _)

theorem beginWait (f : Channel) : SameHook l s (s.beginWait l f) := by
  unfold State.beginWait
  split
  · exact refl l s
  · dsimp only
    split
    · exact trans (updLine _ rfl) (failToIdle _)
    · exact trans (updLine _ rfl) (request _)

theorem leakScan (reading : Nat) : SameHook l s (s.leakScan l reading) := by
  unfold State.leakScan
  split
  · exact refl l s
  · split
    · exact refl l s
    · exact refl l s
    · dsimp only
      split
      · exact updLine _ rfl
      · split
        · exact trans (updLine _ rfl) (failToIdle _)
        · split
          · exact updLine _ rfl
          · exact trans (updLine _ rfl) (trans (updLine _ rfl) (beginWait _))

theorem trackScan (judged : Bool) (reading : Nat) : SameHook l s (s.trackScan l judged reading) := by
  unfold State.trackScan
  dsimp only
  split
  · split
    · exact updLine _ rfl
    · simp [SameHook, State.line_writeBaseline]
  · exact updLine _ rfl

theorem enterExchWait : SameHook l s (s.enterExchWait l) := by
  unfold State.enterExchWait
  dsimp only
  split
  · exact trans (updLine _ rfl) (enter _)
  · exact trans (updLine _ rfl) ((enter _).trans (markLine _ _ _))

theorem revertChecks (called : Option (LineNo × Slot)) : SameHook l s (s.revertChecks l called) := by
  unfold State.revertChecks
  dsimp only
  split
  · exact endCall _ _
  · split
    · exact endCall _ _
    · split
      · exact endCall _ _
      · split
        · exact (updRecord _).trans (endCall _ _)
        · split
          · exact (updRecord _).trans (endCall _ _)
          · split
            · exact (updRecord _).trans (endCall _ _)
            · exact (updRecord _).trans ((updRecord _).trans (enter _))

theorem consultDialPlan : SameHook l s (s.consultDialPlan l) := by
  unfold State.consultDialPlan
  split
  · exact refl l s
  · unfold State.dialAction
    dsimp only
    split
    · exact enterExchWait
    · exact endCall _ _
    · exact revertChecks _
    · exact revertChecks _
  · split
    · exact enterExchWait
    · exact endCall _ _

theorem callDigit (d : Digit) : SameHook l s (s.callDigit l d) := by
  unfold State.callDigit State.dialDigit State.markDigits
  split
  · exact trans (updLine _ rfl) consultDialPlan
  · exact updLine _ rfl
  · exact trans (updLine _ rfl) (markLine _ _ _)
  all_goals exact refl l s

theorem callDigitError : SameHook l s (s.callDigitError l) := by
  unfold State.callDigitError State.markDigits
  split
  · exact endCall _ _
  · exact updLine _ rfl
  · exact trans (updLine _ rfl) (markLine _ _ _)
  all_goals exact refl l s

/-- A lift by an off-hook event leaves the machine as its own scan did (R78, R85, R108, R168). -/
theorem lift_silent : SameHook l s (s.lift l .silent) := by
  unfold State.lift State.answer State.alarmAnswer State.revertLift State.calibrationLift
  split
  · exact removeEntry.trans ((updRecord _).trans ((markAnswer _).trans (enter _)))
  · exact removeEntry.trans ((updRecord _).trans ((markAnswer _).trans enterExchWait))
  · exact removeEntry.trans (trans (updLine _ rfl) (enter _))
  · exact (failRun _).trans originate
  all_goals exact refl l s

theorem callOnHook : SameHook l s (s.callOnHook l) := by
  have revert : SameHook l s (s.revertHangup l) := by
    unfold State.revertHangup
    split
    · exact endCall _ _
    · exact (enter _).trans (request _)
  unfold State.callOnHook
  cases (s.line l).call
  case dial | exchWait | exchange | revertTalk => exact endCall _ _
  case reorder | lockout => exact enter _
  case revertTone => exact revert
  all_goals exact refl l s

/-- What the call controller does with an item leaves the machine alone (R49). -/
theorem handItem (i : HookItem) : SameHook l s (s.handItem l i) := by
  cases i with
  | offHook =>
    unfold State.handItem State.callOffHook
    dsimp only
    split
    · exact originate
    · exact lift_silent
  | onHook => exact callOnHook
  | digit d => exact (callDigit d).trans (standbyEvent _)
  | digitError => exact callDigitError.trans (standbyEvent _)
  | flash =>
    unfold State.handItem State.callFlash
    dsimp only
    split
    · exact markLine _ _ _
    · exact refl l s
  | pulse =>
    unfold State.handItem State.callPulse
    dsimp only
    split
    · exact updLine _ rfl
    · exact refl l s

theorem handItems (items : List HookItem) (s : State) : SameHook l s (s.handItems l items) := by
  induction items generalizing s with
  | nil => exact refl l s
  | cons i items ih => exact (handItem i).trans (ih _)

end SameHook

namespace State

variable {s : State} {l : LineNo} {r : Reading}

/-- The leakage part of a scan touches the tracking window, the baseline and LEAKY of the line alone (R56 to R58). -/
theorem line_trackScan (judged : Bool) (reading : Nat) : (s.trackScan l judged reading).line l =
    { s.line l with
      track := ((s.trackScan l judged reading).line l).track
      baseline := ((s.trackScan l judged reading).line l).baseline
      leaky := ((s.trackScan l judged reading).line l).leaky } := by
  unfold trackScan
  dsimp only
  split
  · split
    · simp
    · simp [line_writeBaseline]
  · simp

@[simp] theorem row_trackScan (judged : Bool) (reading : Nat) : (s.trackScan l judged reading).row l = s.row l := by
  unfold trackScan
  dsimp only
  split
  · split <;> simp
  · simp

@[simp] theorem trackScan_arb (judged : Bool) (reading : Nat) : (s.trackScan l judged reading).arb = s.arb := by
  unfold trackScan
  dsimp only
  split
  · split <;> simp
  · simp

/-- At a scan that reaches the hook machine it moves, and nothing after its move changes it (R41, R44). -/
theorem scanLine_hook (h : s.watched l r) : ((s.scanLine l r).line l).hook = ((s.line l).hookMove r).1 := by
  have moved := loopScan_watched h
  obtain ⟨_, fitted, present, _⟩ := h
  have same : SameHook l (s.hookMoved l ((s.line l).hookMove r).1) (s.scanLine l r) := by
    rw [scanLine_fitted fitted present, fittedScan, moved]
    exact (SameHook.handItems _ _).trans ((SameHook.trackScan _ _).trans (SameHook.leakScan _))
  have hook : (((s.hookMoved l ((s.line l).hookMove r).1)).line l).hook = ((s.line l).hookMove r).1 := by
    rw [line_hookMoved]
  exact Eq.trans same hook

/-- A scan that hands nothing on leaves a line without a run to the leakage part (R56). -/
theorem scanLine_silent (h : s.watched l r) (none' : ((s.line l).hookMove r).2 = []) (run : (s.line l).run = none) :
    s.scanLine l r = (s.hookMoved l ((s.line l).hookMove r).1).trackScan l true r.loop := by
  have moved := loopScan_watched h
  have awake := watched_suspended h
  obtain ⟨_, fitted, present, _⟩ := h
  rw [none', handItems_nil] at moved
  rw [scanLine_fitted fitted present, fittedScan, moved, line_countScan, awake, leakScan_of_none]
  · rfl
  · rw [line_trackScan, line_hookMoved, run]

/-- A scan of a suspended line under neither a party test nor ringing discards its window, and that is all (R50, R56). -/
theorem scanLine_held (fitted : (s.line l).fitted = true) (present : r.present = true)
    (held : (s.line l).call = .disabled ∨ (s.line l).call = .test) (testing : (s.line l).test.running = false)
    (ringing : (s.line l).ringing = false) (run : (s.line l).run = none) :
    s.scanLine l r = (s.countScan l).updLine l fun x => { x with track := ⟨0, 0⟩ } := by
  have suspended : (s.line l).suspended = true := by
    rcases held with call | call <;> simp [Line.suspended, call]
  refine scanLine_untracked fitted present ?_ run ?_
  · rw [loopScan_quiet (s := s.countScan l) r testing ringing, line_countScan, if_pos suspended]
  · simp [Line.tracks, suspended]

/-- A scan at which the hook machine moves to `k` and hands items on, after which the line neither tracks nor has a run: the
call controller takes the items, and the window is discarded (R41, R49, R56). -/
theorem scanLine_handed {k : Hook} {items : List HookItem} (h : s.watched l r) (move : (s.line l).hookMove r = (k, items))
    (run : (((s.hookMoved l k).handItems l items).line l).run = none)
    (away : k.state ≠ .onhook ∨ (((s.hookMoved l k).handItems l items).line l).call ≠ .idle) :
    s.scanLine l r = ((s.hookMoved l k).handItems l items).updLine l fun x => { x with track := ⟨0, 0⟩ } := by
  have moved := loopScan_watched h
  obtain ⟨_, fitted, present, _⟩ := h
  rw [move] at moved
  refine scanLine_untracked fitted present moved run ?_
  have hook : (((s.hookMoved l k).handItems l items).line l).hook = k :=
    Eq.trans (SameHook.handItems items (s.hookMoved l k)) (by rw [line_hookMoved])
  rw [← Bool.not_eq_true, tracks_iff, hook]
  rintro ⟨_, idle, onhook⟩
  exact away.elim (fun ne => ne onhook) fun ne => ne idle

/-- A pulse notice begins dialling in DIAL and does nothing else (R66). -/
theorem line_callPulse (l : LineNo) (s : State) : (s.callPulse l).line l =
    { s.line l with dialBegun := if (s.line l).call = .dial then true else (s.line l).dialBegun } := by
  unfold callPulse
  split <;> simp [*]

theorem callPulse_arb (l : LineNo) (s : State) : (s.callPulse l).arb = s.arb := by
  unfold callPulse
  split <;> rfl

theorem callPulse_link (l : LineNo) (s : State) : (s.callPulse l).link = s.link := by
  unfold callPulse
  split <;> rfl

/-- A flash is marked in EXCHANGE and disregarded elsewhere (R76). -/
theorem callFlash_exchange (h : (s.line l).call = .exchange) :
    s.callFlash l = s.markLine .flash l (lineByte l :: stampBytes s.stamp) := if_pos h

theorem callFlash_elsewhere (h : (s.line l).call ≠ .exchange) : s.callFlash l = s := if_neg h

@[simp] theorem line_callFlash (l m : LineNo) (s : State) : (s.callFlash l).line m = s.line m := by
  unfold callFlash
  split <;> simp

@[simp] theorem callFlash_arb (l : LineNo) (s : State) : (s.callFlash l).arb = s.arb := by
  unfold callFlash
  split <;> simp

/-- After a pulse notice or a flash the machine stands in OFFHOOK, and the window is discarded (R47, R56). -/
theorem scanLine_short {i : HookItem} (h : s.watched l r) (handed : ((s.line l).hookMove r).2 = [i])
    (short : i = .pulse ∨ i = .flash) (run : (s.line l).run = none) : s.scanLine l r =
      ((s.hookMoved l ((s.line l).hookMove r).1).handItem l i).updLine l fun x => { x with track := ⟨0, 0⟩ } := by
  have offhook : ((s.line l).hookMove r).1.state = .offhook := by
    refine Hook.scan_offhook_of_pulse _ _ _ ?_
    rcases short with rfl | rfl
    · exact .inl handed
    · exact .inr handed
  refine scanLine_handed (items := [i]) h (Prod.ext rfl handed) ?_ (.inl (by rw [offhook]; nofun))
  rcases short with rfl | rfl
  · rw [handItems_cons, handItems_nil, handItem, line_callPulse, line_hookMoved, run]
  · rw [handItems_cons, handItems_nil, handItem, line_callFlash, line_hookMoved, run]

end State

end Sys2Proof.Machine

open Sys2Proof Sys2Proof.Machine

/-- Settles O32: the table of the machine move by move, and a scan by what the machine hands on. -/
theorem hookMachineFollowsItsTable : Obligations.HookMachineFollowsItsTable := by
  refine ⟨fun h n => ⟨Hook.scan_onhook_rest n, Hook.scan_onhook_make n, Hook.scan_qualify_fails n,
    Hook.scan_qualify_counts n, Hook.scan_qualify_done n, fun st lt => ?_, fun st m silent => ?_, fun st m dialled => ?_,
    Hook.scan_offhook_full n, Hook.scan_offhook_break n, Hook.scan_break_counts n, Hook.scan_break_ends n,
    fun st hit full => ?_, fun st hit lt => ?_, fun st hit lt done dialled => ?_, fun st hit lt done silent => ?_,
    fun st lo hi => ?_, fun st lo silent => ?_, fun st lo dialled => ?_,
    fun d nonzero => digitOf_digit (.inl ⟨nonzero, rfl⟩), rfl, fun k => digitOf_error⟩,
    ?_⟩
  · rw [Hook.scan_offhook_make n st (by omega), Hook.closed_counting (by omega)]
  · rw [Hook.scan_offhook_make n st (by omega), m, Hook.closed_silent silent, silent]
  · rw [Hook.scan_offhook_make n st (by omega), m, Hook.closed_digit dialled]
  · rw [Hook.scan_break_make n st, Hook.endBreak_full hit full]
  · rw [Hook.scan_break_make n st, Hook.endBreak_hit hit (by omega), min_eq_right (by omega),
      Hook.closed_counting (by omega)]
  · rw [Hook.scan_break_make n st, Hook.endBreak_hit hit lt, min_eq_left done, Hook.closed_digit dialled]
  · rw [Hook.scan_break_make n st, Hook.endBreak_hit hit lt, min_eq_left done, Hook.closed_silent silent, silent]
  · rw [Hook.scan_break_make n st, Hook.endBreak_pulse lo hi]
  · rw [Hook.scan_break_make n st, Hook.endBreak_flash lo silent]
  · rw [Hook.scan_break_make n st, Hook.endBreak_digit_flash lo dialled]
  · intro l r s paced fitted present x move
    refine ⟨fun watched => ⟨s.scanLine l r, State.exec_scan paced, State.scanLine_onlyLine fitted present,
      State.scanLine_hook watched, fun silent => ?_, fun silent run => ?_, fun pulse run => ?_, fun flash run => ?_⟩,
      fun held testing ringing run => ⟨s.scanLine l r, State.exec_scan paced, State.scanLine_onlyLine fitted present, ?_⟩⟩
    · refine (em (x.run = none)).imp_left fun run => ?_
      rw [State.scanLine_silent watched silent run, State.line_trackScan, State.row_trackScan, State.line_hookMoved]
      exact ⟨rfl, rfl⟩
    · rw [State.scanLine_silent watched silent run, State.line_trackScan, State.trackScan_arb, State.line_hookMoved]
      exact ⟨rfl, rfl, rfl, rfl, rfl, rfl⟩
    · rw [State.scanLine_short watched pulse (.inl rfl) run]
      refine ⟨State.callPulse_arb _ _, State.callPulse_link _ _, ?_⟩
      rw [State.line_updLine, if_pos rfl, State.handItem, State.line_callPulse, State.line_hookMoved]
      rfl
    · rw [State.scanLine_short watched flash (.inr rfl) run, State.handItem]
      refine ⟨State.callFlash_arb _ _, ?_, fun elsewhere => ?_, fun exchange => ?_⟩
      · rw [State.line_updLine, if_pos rfl, State.line_callFlash, State.line_hookMoved]
        rfl
      · rw [State.callFlash_elsewhere (by rwa [State.line_hookMoved])]
        rfl
      · rw [State.callFlash_exchange (by rwa [State.line_hookMoved]), State.hookMoved_stamp]
        exact State.markLine_marked .flash l _ (s.hookMoved l _)
    · rw [State.scanLine_held fitted present held testing ringing run]
      exact ⟨by rw [State.line_updLine, if_pos rfl, State.line_countScan], rfl, rfl⟩
end

section
/-! The tracking window of a line (R56, R57, R58): the scans that discard it, those that add to it, and the hundredth. -/

namespace Sys2Proof.Machine

/-- The move of the baseline is an eighth of the difference, truncated toward zero (R57). -/
theorem trackedBaseline_eq (b a : Nat) : (trackedBaseline b a : Int) = b + Int.tdiv ((a : Int) - b) 8 := by
  unfold trackedBaseline
  split
  · next le =>
    obtain ⟨d, rfl⟩ := Nat.exists_eq_add_of_le le
    have rise : ((b + d : Nat) : Int) - b = d := by push_cast; omega
    rw [Nat.add_sub_cancel_left, rise, Nat.cast_add]
    rfl
  · next gt =>
    obtain ⟨d, rfl⟩ := Nat.exists_eq_add_of_le (Nat.le_of_not_le gt)
    have fall : ((a : Int) - (a + d : Nat)) = -(d : Int) := by push_cast; omega
    have small : d / 8 ≤ a + d := (Nat.div_le_self d 8).trans (Nat.le_add_left d a)
    rw [Nat.add_sub_cancel_left, fall, Int.neg_tdiv, Nat.cast_sub small]
    rfl

namespace State

variable {s : State} {l : LineNo} {r : Reading}

/-! ### The LEAK work leaves the window alone -/

theorem track_failToIdle (c : CalCause) : ((s.failToIdle l c).line l).track = (s.line l).track := by
  cases h : (s.line l).run with
  | none => simp [failToIdle, h]
  | some q => rw [line_failToIdle c h]

theorem track_beginWait (f : Channel) : ((s.beginWait l f).line l).track = (s.line l).track := by
  unfold beginWait
  split
  · rfl
  · dsimp only
    split
    · rw [track_failToIdle, line_updLine, if_pos rfl]
    · rw [line_request_self, line_updLine, if_pos rfl]

theorem track_leakScan (reading : Nat) : ((s.leakScan l reading).line l).track = (s.line l).track := by
  unfold leakScan
  split
  · rfl
  · split
    · rfl
    · rfl
    · dsimp only
      split
      · simp
      · split
        · simp [track_failToIdle]
        · split
          · simp
          · simp [track_beginWait]

/-! ### The scans that discard the window -/

/-- A scan that is no tracking scan (R56). -/
theorem scanLine_discards (fitted : (s.line l).fitted = true) (present : r.present = true)
    (untracked : (((s.countScan l).loopScan l r).line l).tracks (!(s.line l).suspended) = false) :
    ((s.scanLine l r).line l).track = ⟨0, 0⟩ := by
  rw [scanLine_fitted fitted present, fittedScan, track_leakScan, line_countScan, trackScan_of_not _ untracked,
    line_updLine, if_pos rfl]

theorem makeScan_iff : (s.line l).makeScan r.loop = true ↔ s.makes l r := by simp [Line.makeScan, makes]

/-- Where the machine's work leaves the line ONHOOK in IDLE, it did not move away from there (R44 to R46). -/
theorem watched_untracked (h : s.watched l r) (away : s.makes l r ∨ (s.line l).hook.state = .offhook
      ∨ ((s.line l).hook.state = .brk ∧ (s.line l).hook.brk < 89)
      ∨ (((s.line l).hook.state = .onhook ∨ (s.line l).hook.state = .qualify) ∧ (s.line l).call ≠ .idle)) :
    (((s.countScan l).loopScan l r).line l).tracks (!(s.line l).suspended) = false := by
  let move := (s.line l).hookMove r
  have loop : (s.countScan l).loopScan l r = (s.hookMoved l move.1).handItems l move.2 := loopScan_watched h
  have hook : (((s.hookMoved l move.1).handItems l move.2).line l).hook = move.1 :=
    Eq.trans (SameHook.handItems move.2 (s.hookMoved l move.1)) (by rw [line_hookMoved])
  rw [loop, ← Bool.not_eq_true, tracks_iff, hook]
  rintro ⟨_, idle, onhook⟩
  by_cases make : s.makes l r
  · have moves : move = (s.line l).hook.scan true (s.line l).required := by
      simp only [move, Line.hookMove, makeScan_iff.mpr make]
    exact Hook.scan_make_state _ _ (moves ▸ onhook)
  · have moves : move = (s.line l).hook.scan false (s.line l).required := by
      simp only [move, Line.hookMove, Bool.eq_false_iff.mpr (makeScan_iff.not.mpr make)]
    rcases away with make' | offhook | ⟨brk, lt⟩ | ⟨rest, notIdle⟩
    · exact make make'
    · rw [moves, Hook.scan_offhook_break _ offhook] at onhook
      contradiction
    · rw [moves, Hook.scan_break_counts _ brk lt, brk] at onhook
      contradiction
    · have silent : move.2 = [] := by
        rcases rest with st | st
        · rw [moves, Hook.scan_onhook_rest _ st]
        · rw [moves, Hook.scan_qualify_fails _ st]
      rw [silent, handItems_nil, line_hookMoved] at idle
      exact notIdle idle

theorem suspended_untracked {x : Line} (y : Line) (h : x.suspended = true) : y.tracks (!x.suspended) = false := by
  simp [Line.tracks, h]

/-! ### The tracking scans -/

/-- A machine at rest that finds no make scan stays there, its qualify count perhaps at 0 (R44). -/
theorem hookMove_rests (make : ¬s.makes l r)
    (rest : (s.line l).hook.state = .onhook ∨ (s.line l).hook.state = .qualify) :
    ∃ q, (s.line l).hookMove r = ({ (s.line l).hook with state := .onhook, qualify := q }, []) := by
  have moves : (s.line l).hookMove r = (s.line l).hook.scan false (s.line l).required := by
    simp only [Line.hookMove, Bool.eq_false_iff.mpr (makeScan_iff.not.mpr make)]
  rw [moves]
  rcases rest with st | st
  · exact ⟨(s.line l).hook.qualify, by rw [Hook.scan_onhook_rest _ st, ← st]⟩
  · exact ⟨0, Hook.scan_qualify_fails _ st⟩

/-- A tracking scan before the hundredth (R56). -/
theorem trackScan_adds {reading : Nat} (tracks : (s.line l).tracks true = true) (lt : (s.line l).track.count < 99) :
    s.trackScan l true reading =
      s.updLine l fun x => { x with track := ⟨x.track.count + 1, x.track.sum + reading⟩ } := by
  simp only [trackScan, tracks, if_true, if_pos lt]
  rfl

/-- The hundredth tracking scan (R57). -/
theorem trackScan_closes {reading : Nat} (tracks : (s.line l).tracks true = true) (full : (s.line l).track.count = 99) :
    s.trackScan l true reading = (s.updLine l fun x => { x with track := ⟨0, 0⟩ }).writeBaseline l
      (trackedBaseline (s.line l).baseline (((s.line l).track.sum + reading) / 100)) := by
  have last : ¬(s.line l).track.count < 99 := by omega
  simp only [trackScan, tracks, if_true, if_neg last]
  rfl

/-- The scan that closes the window is found by its row (R56; log 4). -/
theorem exec_trackingWindowClose {k : Hook} (h : s.watched l r) (move : (s.line l).hookMove r = (k, []))
    (idle : (s.line l).call = .idle) (onhook : k.state = .onhook) (full : (s.line l).track.count = 99) :
    exec (.trackingWindowClose l r) s = .next (s.scanLine l r).settleLink := by
  have awake := watched_suspended h
  obtain ⟨paced, fitted, present, _, _, testing, ringing⟩ := h
  have loop : (s.loopScan l r).line l = { s.line l with hook := k } := by
    rw [loopScan_awake r testing ringing awake, move, handItems_nil, line_updLine, if_pos rfl]
  refine scanning_found (finds := fun u => u.closesWindow l r) paced ?_
  simp [closesWindow, Line.judgedScan, Line.tracks, loop, awake, fitted, present, idle, onhook, full]

end State

end Sys2Proof.Machine

open Sys2Proof Sys2Proof.Machine

/-- Settles O38: the scans that discard the window by what they find; the others by the window's count. -/
theorem trackingWindowMovesTheBaseline : Obligations.TrackingWindowMovesTheBaseline := by
  constructor
  · intro l r s ⟨paced, discards⟩
    refine ⟨s.scanLine l r, State.exec_scan paced, ?_⟩
    by_cases fitted : (s.line l).fitted = true
    case neg =>
      rw [State.scanLine_unfitted (by simpa using fitted), State.line_unfittedScan, if_pos rfl]
    by_cases present : r.present = true
    case neg => rw [State.scanLine_lost fitted (by simpa using present), State.line_fittedLost]
    have held : (s.line l).suspended = true → ((s.scanLine l r).line l).track = ⟨0, 0⟩ := fun suspended =>
      State.scanLine_discards fitted present (State.suspended_untracked _ suspended)
    rcases discards with unfitted | absent | disabled | test | testing | ringing | ⟨watched, away⟩
    · simp [fitted] at unfitted
    · simp [present] at absent
    · exact held (by simp [Line.suspended, disabled])
    · exact held (by simp [Line.suspended, test])
    · exact held (by simp [Line.suspended, testing])
    · exact held (by simp [Line.suspended, ringing])
    · exact State.scanLine_discards fitted present (State.watched_untracked watched away)
  · intro l r s watched idle run make rest x a
    obtain ⟨q, move⟩ := State.hookMove_rests make rest
    have scan := State.scanLine_silent watched (by rw [move]) run
    rw [move] at scan
    dsimp only at scan
    have only : s.OnlyLine l (s.scanLine l r) := State.scanLine_onlyLine watched.2.1 watched.2.2.1
    have exec' := State.exec_scan (r := r) watched.1
    have tracks : Line.tracks { s.line l with hook := { (s.line l).hook with state := .onhook, qualify := q } } true = true :=
      (State.tracks_iff _ _).mpr ⟨rfl, idle, rfl⟩
    have moved_line := State.line_hookMoved l { (s.line l).hook with state := .onhook, qualify := q } s
    refine ⟨fun lt => ⟨s.scanLine l r, exec', only, ?_⟩, fun full i row => ⟨s.scanLine l r, ?_, only, ?_⟩⟩
    · rw [scan, State.trackScan_adds (by rw [moved_line]; exact tracks) (by rw [moved_line]; exact lt)]
      refine ⟨rfl, rfl, ?_⟩
      rw [State.line_updLine, if_pos rfl, moved_line]
    · rcases row with rfl | rfl
      · exact State.exec_trackingWindowClose watched move idle rfl full
      · exact exec'
    · let moved := s.hookMoved l { (s.line l).hook with state := .onhook, qualify := q }
      have track : moved.trackScan l true r.loop = (moved.updLine l fun y => { y with track := ⟨0, 0⟩ }).writeBaseline l
          (trackedBaseline x.baseline a) := by
        rw [State.trackScan_closes (by rw [moved_line]; exact tracks) (by rw [moved_line]; exact full), moved_line]
      have closed : (moved.updLine l fun y => { y with track := ⟨0, 0⟩ }).line l = { x with
          hook := { x.hook with state := .onhook, qualify := q }, track := ⟨0, 0⟩ } := by
        rw [State.line_updLine, if_pos rfl, moved_line]
      have line : (s.scanLine l r).line l = { x with
          hook := { x.hook with state := .onhook, qualify := q }, track := ⟨0, 0⟩
          baseline := trackedBaseline x.baseline a
          leaky := leakyAfter x.leakLimit (trackedBaseline x.baseline a) x.leaky } := by
        rw [scan, track, State.line_writeBaseline, closed]
      rw [line]
      refine ⟨by rw [scan, track, State.writeBaseline_arb]; rfl, trackedBaseline_eq _ _, rfl, fun change => ?_,
        fun same => ?_, rfl⟩
      · have marked := State.writeBaseline_marked (l := l) (by rw [closed]; exact change)
        rw [scan, track]
        rw [State.line_writeBaseline, closed] at marked
        have fitted : x.fitted = true := watched.2.1
        dsimp only at marked
        rw [fitted] at marked
        exact marked
      · rw [scan, track, State.writeBaseline_link (by rw [closed]; exact same)]
        rfl
end

section
/-! Lifts: an off-hook event or a ring trip that leads to a party test (R44, R52, R69, R108, R155, R168). -/

namespace Sys2Proof.Machine

namespace State

variable {s v t : State} {l : LineNo} {r : Reading}

theorem standbyTaken_of_before {bit : Nat} (h : v.standbyTaken t bit) (arb : v.arb = s.arb) (stamp : v.stamp = s.stamp)
    (mask : v.link.mask = s.link.mask) : s.standbyTaken t bit := by
  unfold standbyTaken at h ⊢
  rwa [arb, stamp, mask] at h

@[simp] theorem enter_arb (l : LineNo) (new : CallState) (s : State) : (s.enter l new).arb = s.arb := by
  unfold enter putCall markState
  dsimp only
  split <;> simp

/-! ### Origination -/

/-- The line of an origination as it begins (R69). -/
theorem line_originate (l : LineNo) (s : State) : (s.originate l).line l =
    { s.line l with
      record := some (Record.opened .originated s.stamp), digits := DigitBuffer.empty, out := OutList.empty
      test := PartyTest.started, call := .ident, timer := none, dialBegun := false
      track := (s.line l).trackAfter .ident } := by
  rw [originate, line_standbyEvent, line_enter]
  simp [openCall, Settings.armed, Line.trackAfter]

@[simp] theorem row_originate (l m : LineNo) (s : State) : (s.originate l).row m = s.row m := by
  simp [originate, openCall]

theorem originate_standbyTaken (l : LineNo) (s : State) : s.standbyTaken (s.originate l) 0 := by
  let u := ((s.openCall l (Record.opened .originated s.stamp)).updLine l fun x =>
    { x with test := PartyTest.started }).enter l .ident
  have kept : Kept s u := ((Kept.updLine _ _ rfl).trans (Kept.updLine _ _ rfl)).trans (Kept.enter _ _)
  exact standbyTaken_of_before (standbyEvent_taken (ev := .offhook) (by decide) u) (enter_arb _ _ _) kept.stamp kept.mask

theorem originate_sameReport {k : ReportKind} (other : k ≠ .state) : SameReport k l s (s.originate l) := by
  let u := (s.openCall l (Record.opened .originated s.stamp)).updLine l fun x => { x with test := PartyTest.started }
  have started : SameReport k l s u := .of_link rfl
  exact (started.trans (.enter .ident other)).trans (.standbyEvent .offhook)

theorem originate_tells (h : (s.line l).call ≠ .ident) : s.tells (s.originate l) l none := by
  let u := (s.openCall l (Record.opened .originated s.stamp)).updLine l fun x => { x with test := PartyTest.started }
  have told : u.tells (u.enter l .ident) l none := enter_tells (by simpa [u, openCall] using h)
  have stands : s.tells (u.enter l .ident) l none := tells_of_before told rfl rfl (by simp [u, openCall])
  unfold tells
  rw [originate, line_standbyEvent]
  exact (SameReport.standbyEvent _).marked stands

/-! ### The scans that find a lift -/

/-- The off-hook event, as the machine's move gives it (R44). -/
theorem hookMove_qualifies (h : s.qualifies l r) : (s.line l).hookMove r =
    ({ (s.line l).hook with state := .offhook, qualify := 0, make := 0, pulse := 0 }, [.offHook]) := by
  obtain ⟨_, makes, st, full⟩ := h
  simp only [Line.hookMove, makeScan_iff.mpr makes]
  exact Hook.scan_qualify_done _ st full

/-- The scan that gives the off-hook event is the one that OFF_HOOK names (R44; log 4). -/
theorem exec_offHook {i : Instr} (h : s.qualifies l r) (row : i = .offHook l r ∨ i = .scan l r) :
    exec i s = .next (s.scanLine l r).settleLink := by
  have move := hookMove_qualifies h
  obtain ⟨watched, _⟩ := h
  rcases row with rfl | rfl
  · refine scanning_found (finds := fun u => ((u.line l).itemsAt r).contains .offHook) watched.1 ?_
    simp [itemsAt_watched watched, move]
  · exact exec_scan watched.1

/-- The third scan in a row that meets the trip test is the one that RING_TRIP names (R155; log 4). -/
theorem exec_ringTrip {i : Instr} (h : s.trips l r) (row : i = .ringTrip l r ∨ i = .scan l r) :
    exec i s = .next (s.scanLine l r).settleLink := by
  obtain ⟨paced, fitted, present, testing, met, p, d, play, drive, inrush, trip⟩ := h
  rcases row with rfl | rfl
  · refine scanning_found (finds := fun u => (u.line l).tripsAt r) paced ?_
    simp [Line.tripsAt, Line.judgedScan, Play.judge, Line.tripMet, fitted, present, testing, met, play, drive, inrush, trip]
  · exact exec_scan paced

/-- The line has come to the state `v` at which the call controller takes a lift: of the line the scan has changed the hook
machine, which an off-hook event has taken to OFFHOOK, or the play record. -/
structure LiftPoint (s v : State) (l : LineNo) (m : Manner) : Prop where
  line : v.line l = { s.line l with hook := (v.line l).hook, play := (v.line l).play }
  offhook : m = .silent → (v.line l).hook.state = .offhook
  row : v.row l = s.row l
  arb : v.arb = s.arb
  link : v.link = s.link
  stamp : v.stamp = s.stamp
  settings : v.settings = s.settings

theorem LiftPoint.call {m : Manner} (h : LiftPoint s v l m) : (v.line l).call = (s.line l).call := by rw [h.line]

theorem LiftPoint.run {m : Manner} (h : LiftPoint s v l m) : (v.line l).run = (s.line l).run := by rw [h.line]

theorem scanLine_lift_silent (h : s.qualifies l r) (away : (s.line l).call ≠ .idle) :
    ∃ v, LiftPoint s v l .silent
      ∧ (((v.lift l .silent).line l).run = none →
          s.scanLine l r = (v.lift l .silent).updLine l fun x => { x with track := ⟨0, 0⟩ }) := by
  have move := hookMove_qualifies h
  obtain ⟨watched, _⟩ := h
  refine ⟨s.hookMoved l { (s.line l).hook with state := .offhook, qualify := 0, make := 0, pulse := 0 },
    ⟨by simp, fun _ => by simp, by simp, by simp, by simp, by simp, by simp⟩, fun run => ?_⟩
  have handed : ∀ u : State, (u.line l).call ≠ .idle → u.handItems l [.offHook] = u.lift l .silent := fun u ne =>
    if_neg ne
  have lifted := handed (s.hookMoved l { (s.line l).hook with state := .offhook, qualify := 0, make := 0, pulse := 0 })
    (by simpa using away)
  rw [← lifted]
  exact scanLine_handed watched move (by rw [lifted, run]) (.inl (by nofun))

theorem scanLine_lift_trip (h : s.trips l r) :
    ∃ v, LiftPoint s v l .trip
      ∧ (((v.lift l .trip).line l).run = none →
          s.scanLine l r = (v.lift l .trip).updLine l fun x => { x with track := ⟨0, 0⟩ }) := by
  obtain ⟨_, fitted, present, testing, met, p, d, play, drive, inrush, trip⟩ := h
  refine ⟨(s.countScan l).updLine l fun x => { x with play := some p.tripped },
    ⟨by simp, nofun, by simp [countScan, row], by simp [countScan], by simp [countScan], by simp, by simp [countScan]⟩,
    fun run => ?_⟩
  refine scanLine_untracked fitted present ?_ run (suspended_untracked _ ?_)
  · simp [loopScan, ringScan, Play.judge, Line.tripMet, testing, play, drive, inrush, trip, met]
  · simp [Line.suspended, Line.ringing, play, drive]

/-- A scan that finds a lift away from IDLE: the call controller takes the lift, and what it leaves stands but for the
tracking window (R78, R85, R108, R168). -/
theorem scan_lifted {m : Manner} {i : Instr} (h : s.liftedBy l r m i) (away : (s.line l).call ≠ .idle) :
    exec i s = .next (s.scanLine l r).settleLink ∧ s.OnlyLine l (s.scanLine l r)
      ∧ ∃ v, LiftPoint s v l m
        ∧ (((v.lift l m).line l).run = none →
            s.scanLine l r = (v.lift l m).updLine l fun x => { x with track := ⟨0, 0⟩ }) := by
  rcases h with ⟨rfl, qualifies, row⟩ | ⟨rfl, trips, row⟩
  · exact ⟨exec_offHook qualifies row, scanLine_onlyLine qualifies.1.2.1 qualifies.1.2.2.1,
      scanLine_lift_silent qualifies away⟩
  · exact ⟨exec_ringTrip trips row, scanLine_onlyLine trips.2.1 trips.2.2.1, scanLine_lift_trip trips⟩

/-! ### The lifts -/

/-- The hook machine after a lift: a ring trip takes it to OFFHOOK (R108, R168). -/
def liftedHook (h : Hook) : Manner → Hook
  | .trip => Hook.offhookClear
  | .silent => h

theorem line_revertLift (l : LineNo) (m : Manner) (s : State) : (s.revertLift l m).line l =
    { s.line l with
      play := if s.row l = none then (s.line l).play else none
      manner := some m, hook := liftedHook (s.line l).hook m, test := PartyTest.started
      call := .revertCheck, timer := none, dialBegun := false, track := (s.line l).trackAfter .revertCheck } := by
  rw [revertLift, line_enter]
  cases m <;> simp [Settings.armed, Line.trackAfter, liftedHook]

theorem row_revertLift (l : LineNo) (m : Manner) (s : State) : (s.revertLift l m).row l = none := by
  rw [revertLift, row_enter, row_updLine, row_removeEntry]

theorem revertLift_tells (m : Manner) (h : (s.line l).call ≠ .revertCheck) : s.tells (s.revertLift l m) l none := by
  have kept : Kept s (s.removeEntry l) := Kept.removeEntry l
  exact tells_of_before (enter_tells (by simpa using h)) kept.stamp kept.mask (by simp)

/-- The state of a lift during a run before the origination: the run failed, the machine moved (R168). -/
def liftFailed (l : LineNo) (s : State) : Manner → State
  | .trip => (s.failRun l .offhook).updLine l fun x => { x with hook := Hook.offhookClear }
  | .silent => s.failRun l .offhook

theorem calibrationLift_eq (l : LineNo) (m : Manner) (s : State) :
    s.calibrationLift l m = (s.liftFailed l m).originate l := by cases m <;> rfl

theorem line_liftFailed (l : LineNo) (m : Manner) (s : State) : (s.liftFailed l m).line l =
    { (s.failRun l .offhook).line l with hook := liftedHook ((s.failRun l .offhook).line l).hook m } := by
  cases m <;> simp [liftFailed, liftedHook]

theorem row_liftFailed (l k : LineNo) (m : Manner) (s : State) :
    (s.liftFailed l m).row k = (s.failRun l .offhook).row k := by cases m <;> rfl

theorem liftFailed_link (l : LineNo) (m : Manner) (s : State) : (s.liftFailed l m).link = (s.failRun l .offhook).link := by
  cases m <;> rfl

theorem liftFailed_kept (l : LineNo) (m : Manner) (s : State) : Kept s (s.liftFailed l m) := by
  cases m
  · have failed : Kept s (s.failRun l .offhook) := Kept.failRun l .offhook
    exact failed.trans (Kept.updLine l (fun x => { x with hook := Hook.offhookClear }) rfl)
  · exact Kept.failRun l .offhook

section

variable {q : Run} (m : Manner) (h : (s.line l).run = some q)

include h

/-- The line of a lift during a run (R168, R172). -/
theorem line_calibrationLift : (s.calibrationLift l m).line l =
    { s.line l with
      play := if s.row l = none then (s.line l).play else none
      calStatus := .failed, calCause := some .offhook, run := none, hook := liftedHook (s.line l).hook m
      record := some (Record.opened .originated s.stamp), digits := DigitBuffer.empty, out := OutList.empty
      test := PartyTest.started, call := .ident, timer := none, dialBegun := false
      track := (s.line l).trackAfter .ident } := by
  rw [calibrationLift_eq, line_originate, line_liftFailed, line_failRun_of_run .offhook h, (liftFailed_kept l m s).stamp]
  rfl

theorem row_calibrationLift : (s.calibrationLift l m).row l = none := by
  rw [calibrationLift_eq, row_originate, row_liftFailed, row_failRun_of_run .offhook h]

theorem calibrationLift_tells (away : (s.line l).call ≠ .ident) : s.tells (s.calibrationLift l m) l none := by
  have kept := liftFailed_kept l m s
  have call : ((s.liftFailed l m).line l).call = (s.line l).call := by
    rw [line_liftFailed, line_failRun_of_run .offhook h]
  rw [calibrationLift_eq]
  exact tells_of_before (originate_tells (by rwa [call])) kept.stamp kept.mask call

/-- The run of a line that was lifted failed OFFHOOK (R168, R172). -/
theorem calibrationLift_runFailed : s.runFailed (s.calibrationLift l m) l q .offhook where
  status := by simp [line_calibrationLift m h]
  closed := by simp [line_calibrationLift m h, row_calibrationLift m h]
  kept := by simp [line_calibrationLift m h]
  report := by
    have same : calibrationData l ((s.calibrationLift l m).line l) q s.stamp
        = calibrationData l ((s.failRun l .offhook).line l) q s.stamp := by
      rw [line_calibrationLift m h, line_failRun_of_run .offhook h]
      rfl
    have moved : SameReport .calibration l (s.failRun l .offhook) (s.liftFailed l m) := .of_link (liftFailed_link l m s)
    unfold runReported
    rw [same, calibrationLift_eq]
    exact (moved.trans (originate_sameReport (by decide))).marked (failRun_runFailed .offhook h).report

end

/-! ### An origination at a scan -/

/-- What the off-hook event of a line in IDLE leaves: an origination, the tracking window ended (R52, R56, R69). -/
theorem scanLine_originates (h : s.qualifies l r) (idle : (s.line l).call = .idle) (run : (s.line l).run = none) :
    s.scanLine l r = ((s.hookMoved l { (s.line l).hook with
      state := .offhook, qualify := 0, make := 0, pulse := 0 }).originate l).updLine l
        fun x => { x with track := ⟨0, 0⟩ } := by
  let k : Hook := { (s.line l).hook with state := .offhook, qualify := 0, make := 0, pulse := 0 }
  have move : (s.line l).hookMove r = (k, [.offHook]) := hookMove_qualifies h
  have handed : (s.hookMoved l k).handItems l [.offHook] = (s.hookMoved l k).originate l :=
    if_pos (by rw [line_hookMoved, idle])
  have scan := scanLine_handed h.1 move (by rw [handed, line_originate, line_hookMoved, run]) (.inl (by nofun))
  rwa [handed] at scan

end State

end Sys2Proof.Machine

open Sys2Proof Sys2Proof.Machine

/-- Settles O33: an off-hook event in IDLE, then the lifts of the two states that a scan can lift to a party test. -/
theorem liftLeadsToAPartyTest : Obligations.LiftLeadsToAPartyTest := by
  refine ⟨fun l r s i qualifies row idle run => ?_, fun l r m i s lifted => ⟨fun ring run => ?_, fun q cal run => ?_⟩⟩
  · have only := State.scanLine_onlyLine qualifies.1.2.1 qualifies.1.2.2.1
    refine ⟨s.scanLine l r, State.exec_offHook qualifies row, only, ?_⟩
    let v := s.hookMoved l { (s.line l).hook with state := .offhook, qualify := 0, make := 0, pulse := 0 }
    have scan : s.scanLine l r = (v.originate l).updLine l fun x => { x with track := ⟨0, 0⟩ } :=
      State.scanLine_originates qualifies idle run
    have stands : CallStands l (v.originate l) (s.scanLine l r) := scan ▸ .withTrack _ _ _
    have stamp : v.stamp = s.stamp := State.hookMoved_stamp _ _ _
    have line := State.line_originate l v
    have told : v.tells (v.originate l) l none := State.originate_tells (by simp [v, idle])
    have taken : s.standbyTaken (v.originate l) 0 := State.standbyTaken_of_before (State.originate_standbyTaken l v) rfl stamp rfl
    refine ⟨?_, stands.tells (State.tells_of_before told stamp rfl (by simp [v])), ?_, ?_, ?_, ?_, ?_, ?_, ?_, ?_, ?_⟩
    · rw [stands.line, line]
    · rw [stands.line, line]
      simp [v]
    · rw [stands.line, line]
      rfl
    · rw [stands.line, line]
    · rw [stands.line, line, stamp]
      rfl
    · rw [stands.line, line]
      rfl
    · rw [stands.line, line]
      rfl
    · rw [scan, State.line_updLine, if_pos rfl]
    · rw [stands.row, State.row_originate, State.row_hookMoved]
    · rw [scan]
      exact taken
  · obtain ⟨found, only, v, point, scan⟩ := State.scan_lifted lifted (by rw [ring]; nofun)
    have lift : v.lift l m = v.revertLift l m := by rw [State.lift, point.call, ring]
    have line := State.line_revertLift l m v
    rw [lift, line, point.run, run] at scan
    have stands : CallStands l (v.revertLift l m) (s.scanLine l r) := scan rfl ▸ .withTrack _ _ _
    have told := State.revertLift_tells (s := v) (l := l) m (by rw [point.call, ring]; nofun)
    refine ⟨s.scanLine l r, found, only, by rw [stands.row, State.row_revertLift], ?_,
      stands.tells (State.tells_of_before told point.stamp (by rw [point.link]) point.call), ?_, ?_, ?_, ?_, ?_, ?_⟩
    · rw [stands.line, line]
    · rw [stands.line, line]
    · rw [stands.line, line]
    · rw [stands.line, line]
      rfl
    · rw [stands.line, line, point.line]
    · rintro rfl
      rw [stands.line, line]
      rfl
    · rw [stands.line, line]
      cases m
      · rfl
      · exact point.offhook rfl
  · obtain ⟨found, only, v, point, scan⟩ := State.scan_lifted lifted (by rw [cal]; nofun)
    have lift : v.lift l m = v.calibrationLift l m := by rw [State.lift, point.call, cal]
    have running : (v.line l).run = some q := by rw [point.run, run]
    have line := State.line_calibrationLift m running
    rw [lift, line] at scan
    have stands : CallStands l (v.calibrationLift l m) (s.scanLine l r) := scan rfl ▸ .withTrack _ _ _
    have told := State.calibrationLift_tells m running (by rw [point.call, cal]; nofun)
    have failed : s.runFailed (v.calibrationLift l m) l q .offhook :=
      State.runFailed_of_before (State.calibrationLift_runFailed m running) point.stamp (by rw [point.link])
        (by rw [point.line]) (by rw [point.line]) (by rw [point.line]) rfl
    refine ⟨s.scanLine l r, found, only, ?_,
      stands.tells (State.tells_of_before told point.stamp (by rw [point.link]) point.call), stands.runFailed failed,
      ?_, ?_, ?_⟩
    · rw [stands.line, line]
    · rw [stands.line, line, point.stamp]
      rfl
    · rw [stands.line, line]
      rfl
    · rintro rfl
      rw [stands.line, line]
      rfl
end

section
/-! What the call controller does with a digit (R71 to R75, R100 to R103): the exchange request, the revert checks, and what
all of it leaves of the run and the arbiter. -/

namespace Sys2Proof.Machine

/-! ### Work on the line alone, the run apart -/

/-- From `s` to `t` the run of line `l` and the arbiter are as they were. -/
structure SameRinging (l : LineNo) (s t : State) : Prop where
  run : (t.line l).run = (s.line l).run
  arb : t.arb = s.arb

namespace SameRinging

variable {s t u : State} {l : LineNo}

theorem refl (l : LineNo) (s : State) : SameRinging l s s := ⟨rfl, rfl⟩

theorem trans (h : SameRinging l s t) (k : SameRinging l t u) : SameRinging l s u :=
  ⟨k.run.trans h.run, k.arb.trans h.arb⟩

theorem updLine (f : Line → Line) (h : (f (s.line l)).run = (s.line l).run) : SameRinging l s (s.updLine l f) :=
  ⟨by simp [h], rfl⟩

theorem markLine (k : ReportKind) (d : List Byte) : SameRinging l s (s.markLine k l d) := ⟨by simp, by simp⟩

theorem enter (new : CallState) : SameRinging l s (s.enter l new) := ⟨by rw [State.line_enter], by simp⟩

theorem endCall (new : CallState) (c : EndCause) : SameRinging l s (s.endCall l new c) := by
  refine ⟨by rw [State.line_endCall], ?_⟩
  unfold State.endCall State.completeRecord State.putCall State.markState
  dsimp only
  split <;> split <;> simp

theorem updRecord (f : Record → Record) : SameRinging l s (s.updRecord l f) := ⟨by simp, rfl⟩

theorem enterExchWait : SameRinging l s (s.enterExchWait l) := by
  unfold State.enterExchWait
  dsimp only
  split
  · exact trans (updLine _ rfl) (enter _)
  · exact trans (updLine _ rfl) ((enter _).trans (markLine _ _))

theorem revertChecks (called : Option (LineNo × Slot)) : SameRinging l s (s.revertChecks l called) := by
  unfold State.revertChecks
  dsimp only
  split
  · exact endCall _ _
  · split
    · exact endCall _ _
    · split
      · exact endCall _ _
      · split
        · exact (updRecord _).trans (endCall _ _)
        · split
          · exact (updRecord _).trans (endCall _ _)
          · split
            · exact (updRecord _).trans (endCall _ _)
            · exact (updRecord _).trans ((updRecord _).trans (enter _))

theorem consultDialPlan : SameRinging l s (s.consultDialPlan l) := by
  unfold State.consultDialPlan
  split
  · exact refl l s
  · unfold State.dialAction
    dsimp only
    split
    · exact enterExchWait
    · exact endCall _ _
    · exact revertChecks _
    · exact revertChecks _
  · split
    · exact enterExchWait
    · exact endCall _ _

theorem callDigit (d : Digit) : SameRinging l s (s.callDigit l d) := by
  unfold State.callDigit State.dialDigit State.markDigits
  split
  · exact trans (updLine _ rfl) consultDialPlan
  · exact updLine _ rfl
  · exact trans (updLine _ rfl) (markLine _ _)
  all_goals exact refl l s

theorem callDigitError : SameRinging l s (s.callDigitError l) := by
  unfold State.callDigitError State.markDigits
  split
  · exact endCall _ _
  · exact updLine _ rfl
  · exact trans (updLine _ rfl) (markLine _ _)
  all_goals exact refl l s

end SameRinging

namespace State

variable {s v t : State} {l : LineNo}

/-! ### The exchange request -/

theorem line_enterExchWait (l : LineNo) (s : State) : (s.enterExchWait l).line l =
    { s.line l with
      out := OutList.empty, call := .exchWait, timer := some (s.settings.exchangeWait * 10), dialBegun := false
      track := (s.line l).trackAfter .exchWait } := by
  have entered : ((s.updLine l fun x => { x with out := OutList.empty }).enter l .exchWait).line l =
      { s.line l with
        out := OutList.empty, call := .exchWait, timer := some (s.settings.exchangeWait * 10), dialBegun := false
        track := (s.line l).trackAfter .exchWait } := by
    rw [line_enter, line_updLine, if_pos rfl]
    rfl
  unfold enterExchWait
  dsimp only
  split
  · exact entered
  · rw [line_markLine, entered]

theorem enterExchWait_tells (h : (s.line l).call ≠ .exchWait) : s.tells (s.enterExchWait l) l none := by
  have entered : s.tells ((s.updLine l fun x => { x with out := OutList.empty }).enter l .exchWait) l none :=
    tells_of_before (enter_tells (by simpa using h)) rfl rfl (by simp)
  unfold enterExchWait
  dsimp only
  split
  · exact entered
  · unfold tells
    rw [line_markLine]
    exact (SameReport.markLine _ (by decide)).marked entered

/-- The exchange request of a call carries its kind, its caller and its digits (R73). -/
theorem enterExchWait_marked {rec : Record} (h : (s.line l).record = some rec) :
    (s.enterExchWait l).marked s.link.mask .exchangeRequest l
      ([lineByte l, rec.kind.code, slotByte rec.caller] ++ digitList (s.line l).digits.digits) := by
  have kept : Kept s ((s.updLine l fun x => { x with out := OutList.empty }).enter l .exchWait) :=
    (Kept.updLine l (fun x => { x with out := OutList.empty }) rfl).trans (Kept.enter l .exchWait)
  simp only [enterExchWait, h, ← kept.mask]
  exact markLine_marked _ _ _ _

/-! ### The revert checks -/

/-- The call fails in DIAL with a cause: REORDER, the record complete (R102). -/
theorem endCall_refused {rec : Record} (cause : EndCause) (dial : (s.line l).call = .dial)
    (opened : (s.line l).record = some rec) :
    ((s.endCall l .reorder cause).line l).call = .reorder
      ∧ ((s.endCall l .reorder cause).line l).timer = some (s.settings.reorder * 10)
      ∧ s.ends (s.endCall l .reorder cause) l rec (s.line l).digits cause
      ∧ s.tells (s.endCall l .reorder cause) l (some cause) := by
  have told := endCall_tells (s := s) (l := l) (new := .reorder) cause (by rw [dial]; nofun)
  rw [opened] at told
  exact ⟨by rw [line_endCall], by rw [line_endCall]; rfl, endCall_ends cause opened, told⟩

/-- The same with the called slot already in the record (R102, step 4 on). -/
theorem endCall_refused_named {rec : Record} (i : Slot) (cause : EndCause) (dial : (s.line l).call = .dial)
    (opened : (s.line l).record = some rec) :
    let t := (s.updRecord l fun r => { r with called := some i }).endCall l .reorder cause
    (t.line l).call = .reorder ∧ (t.line l).timer = some (s.settings.reorder * 10)
      ∧ s.ends t l { rec with called := some i } (s.line l).digits cause ∧ s.tells t l (some cause) := by
  intro t
  let u := s.updRecord l fun r => { r with called := some i }
  have line : u.line l = { s.line l with record := some { rec with called := some i } } := by simp [u, opened]
  have refused := endCall_refused (s := u) (l := l) cause (by rw [line]; exact dial) (by rw [line])
  rw [line] at refused
  obtain ⟨call, timer, ended, told⟩ := refused
  exact ⟨call, timer, ends_of_before ended rfl rfl rfl, tells_of_before told rfl rfl (by rw [line])⟩

/-- The revert checks in their order, and REVERT_TONE (R102, R103). -/
theorem revertChecks_judged (called : Option (LineNo × Slot)) {rec : Record} (dial : (s.line l).call = .dial)
    (opened : (s.line l).record = some rec) : s.revertJudged (s.revertChecks l called) l rec (s.line l).digits called := by
  have caller : (s.line l).caller = rec.caller := by simp [Line.caller, opened]
  unfold revertJudged revertChecks
  dsimp only
  refine ⟨fun off => ?_, fun on unassigned => ?_, fun m i on named other => ?_, fun i on named => ?_⟩
  · have barred : (s.line l).revertAllowed = false := off
    rw [if_pos (by simp [barred])]
    exact endCall_refused .barred dial opened
  · subst unassigned
    rw [if_neg (by simpa [Line.revertAllowed] using on)]
    exact endCall_refused .unassigned dial opened
  · subst named
    rw [if_neg (by simpa [Line.revertAllowed] using on)]
    dsimp only
    rw [if_pos other]
    exact endCall_refused .notSameLine dial opened
  · subst named
    rw [if_neg (by simpa [Line.revertAllowed] using on), caller]
    dsimp only
    rw [if_neg (by simp)]
    refine ⟨fun no => ?_, fun yes self => ?_, fun yes another unloaded => ?_, fun yes another loaded => ?_⟩
    · rw [if_pos (by simp [no])]
      exact endCall_refused_named i .notAccepted dial opened
    · rw [if_neg (by simp [yes]), if_pos self]
      exact endCall_refused_named i .self dial opened
    · rw [if_neg (by simp [yes]), if_neg another, if_pos unloaded]
      exact endCall_refused_named i .noLoad dial opened
    · rw [if_neg (by simp [yes]), if_neg another, if_neg loaded]
      refine ⟨by rw [line_enter], tells_of_before (enter_tells (by simp [dial])) rfl rfl (by simp), ?_, ?_⟩
      · rw [line_enter]
        rfl
      · rw [line_enter]
        simp [opened]

/-- Checks made from a state that the event has led to are those of the state that the event found. -/
theorem revertJudged_of_before {rec : Record} {ds : DigitBuffer} {called : Option (LineNo × Slot)}
    (h : v.revertJudged t l rec ds called) (opts : (v.line l).opts = (s.line l).opts)
    (active : (v.line l).active = (s.line l).active) (loads : (v.line l).loads = (s.line l).loads)
    (call : (v.line l).call = (s.line l).call) (link : v.link = s.link) (stamp : v.stamp = s.stamp)
    (settings : v.settings = s.settings) : s.revertJudged t l rec ds called := by
  simp only [revertJudged, ends, tells] at h ⊢
  rwa [opts, active, loads, call, link, stamp, settings] at h

/-! ### The party that the digits name -/

/-- The party of a last digit (R101): that of a present slot, or none. -/
theorem partyOfDigit_last {front : List Digit} {last : Digit} :
    (∀ j : Slot, last.val = j.val + 1 → ((s.line l).active.entries.get j).present = true →
        s.partyOfDigit l (front ++ [last]) = some (l, j))
      ∧ ((∀ j : Slot, last.val = j.val + 1 → ((s.line l).active.entries.get j).present = false) →
        s.partyOfDigit l (front ++ [last]) = none) := by
  simp only [partyOfDigit, List.reverse_append, List.reverse_singleton, List.singleton_append]
  refine ⟨fun j names present => ?_, fun absent => ?_⟩
  · have slot : Fin.ofNat 8 (last.val - 1) = j := Fin.ext (by simp [names])
    rw [if_pos (by omega), slot, if_pos present]
  · split
    · next range =>
      have names : last.val = (Fin.ofNat 8 (last.val - 1)).val + 1 := by
        simp only [Fin.val_ofNat]
        omega
      exact if_neg (Bool.eq_false_iff.mp (absent _ names))
    · rfl

theorem suffixOf_append (front : List Digit) (a b c : Digit) :
    suffixOf (front ++ [a, b, c]) = a.val * 100 + b.val * 10 + c.val := by simp [suffixOf]

/-- Suffixes are decoded by the numbering and the active tables alone (R18). -/
theorem decodeSuffix_congr (x : Nat) (numbering : v.numbering = s.numbering)
    (active : ∀ m, (v.line m).active = (s.line m).active) : v.decodeSuffix x = s.decodeSuffix x := by
  unfold decodeSuffix lowerBoundary
  rw [numbering]
  simp only [active]

end State

end Sys2Proof.Machine
end

section
/-! A completed digit (R45, R47, R48): the scan that completes it, and what the call controller does with it, call state by
call state. -/

namespace Sys2Proof.Machine

theorem HookItem.isDigit_digitOf (k : Nat) : (digitOf k).isDigit = true := by
  unfold digitOf
  split
  · rfl
  · split <;> rfl

theorem CallStands.standbyEvent (l : LineNo) (ev : StandbyEvent) (s : State) : CallStands l s (s.standbyEvent ev) :=
  ⟨by simp, by simp, fun _ _ => .standbyEvent ev⟩

theorem CallStands.callFlash (l : LineNo) (s : State) : CallStands l s (s.callFlash l) := by
  unfold State.callFlash
  split
  · exact markFlash _
  · exact refl l s

namespace State

variable {s t v c : State} {l : LineNo} {r : Reading} {k : Nat} {flash : Bool}

/-- A marking of a line keeps what an event left the arbiter, and the SUPPLY report (R139, R143). -/
theorem standbyTaken_markLine {bit : Nat} (h : s.standbyTaken t bit) (j : ReportKind) (l : LineNo) (d : List Byte) :
    s.standbyTaken (t.markLine j l d) bit := by
  obtain ⟨arb, woken⟩ := h
  have apart := (lineEntry_ne_device l).symm
  refine ⟨by rw [markLine_arb, arb], fun standby wakes on => ?_⟩
  obtain ⟨slot, pending⟩ := woken standby wakes on
  exact ⟨(mark_slot_ne _ _ _ _ _ _ (.inr apart)).trans slot, (mark_pending_ne _ _ _ _ _ _ (.inr apart)).trans pending⟩

theorem standbyTaken_callFlash {bit : Nat} (h : s.standbyTaken t bit) (l : LineNo) : s.standbyTaken (t.callFlash l) bit := by
  unfold callFlash
  split
  · exact standbyTaken_markLine h _ _ _
  · exact h

/-! ### The scan -/

/-- The machine as a completed digit leaves it, and what it hands on (R45, R47, R48). -/
theorem hookMove_dials (h : s.dials l r k flash) : (s.line l).hookMove r =
    (⟨.offhook, 0, 0, if flash then 1 else 30, 0⟩, digitOf k :: if flash then [.flash] else []) := by
  obtain ⟨_, makes, rfl, dialled, third⟩ := h
  simp only [Line.hookMove, makeScan_iff.mpr makes]
  rcases third with ⟨rfl, st, make⟩ | ⟨rfl, st, hit, lt, full⟩ | ⟨rfl, st, long⟩
  · rw [Hook.scan_offhook_make _ st (by omega), make, Hook.closed_digit dialled]
    rfl
  · rw [Hook.scan_break_make _ st, Hook.endBreak_hit hit lt, min_eq_left full, Hook.closed_digit dialled]
    rfl
  · rw [Hook.scan_break_make _ st, Hook.endBreak_digit_flash long dialled]
    rfl

/-- The scan that completes a digit is the one that DIGIT_COMPLETE names (R48; log 4). -/
theorem exec_digitComplete {i : Instr} (h : s.dials l r k flash) (row : i = .digitComplete l r ∨ i = .scan l r) :
    exec i s = .next (s.scanLine l r).settleLink := by
  have move := hookMove_dials h
  obtain ⟨watched, _⟩ := h
  rcases row with rfl | rfl
  · refine scanning_found (finds := fun u => ((u.line l).itemsAt r).any HookItem.isDigit) watched.1 ?_
    simp [itemsAt_watched watched, move, HookItem.isDigit_digitOf]
  · exact exec_scan watched.1

/-- What the call controller does with a completed digit, the DIGIT standby event apart (R64). -/
def digitTaken (l : LineNo) (k : Nat) (s : State) : State :=
  match digitOf k with
  | .digit d => s.callDigit l d
  | .digitError | .offHook | .onHook | .flash | .pulse => s.callDigitError l

theorem handItem_digitOf (l : LineNo) (k : Nat) (s : State) :
    s.handItem l (digitOf k) = (s.digitTaken l k).standbyEvent .digit := by
  have digit := HookItem.isDigit_digitOf k
  unfold digitTaken
  generalize digitOf k = i at digit ⊢
  cases i with
  | digit d => rfl
  | digitError => rfl
  | offHook | onHook | flash | pulse => contradiction

theorem digitTaken_digit {d : Digit} (h : (d ≠ 0 ∧ k = d.val) ∨ (d = 0 ∧ k = 10)) :
    s.digitTaken l k = s.callDigit l d := by simp only [digitTaken, digitOf_digit h]

theorem digitTaken_error (h : 10 < k) : s.digitTaken l k = s.callDigitError l := by
  simp only [digitTaken, digitOf_error h]

theorem digitTaken_sameRinging : SameRinging l s (s.digitTaken l k) := by
  unfold digitTaken
  split
  · exact .callDigit _
  all_goals exact .callDigitError

theorem digitTaken_kept : Kept s (s.digitTaken l k) := by
  unfold digitTaken
  split
  · exact Kept.callDigit _ _
  all_goals exact Kept.callDigitError _

/-- In EXCHANGE a digit leaves the state as it is (R75). -/
theorem digitTaken_exchange (h : (s.line l).call = .exchange) : ((s.digitTaken l k).line l).call = .exchange := by
  unfold digitTaken callDigit callDigitError markDigits
  split <;> simp [h]

/-- The state at which the call controller takes a completed digit. -/
def digitPoint (l : LineNo) (flash : Bool) (s : State) : State :=
  s.hookMoved l ⟨.offhook, 0, 0, if flash then 1 else 30, 0⟩

theorem line_digitPoint (l : LineNo) (flash : Bool) (s : State) : (s.digitPoint l flash).line l =
    { s.line l with hook := ⟨.offhook, 0, 0, if flash then 1 else 30, 0⟩ } := line_hookMoved _ _ _

theorem active_digitPoint (l m : LineNo) (flash : Bool) (s : State) :
    ((s.digitPoint l flash).line m).active = (s.line m).active := by
  rw [digitPoint, hookMoved, line_updLine]
  split
  · next same => rw [same, line_countScan]
  · rfl

/-- What the call controller does with a digit stands at the end of the scan, with the standby event and, in EXCHANGE, the
flash that follows the digit (R47, R49, R76). -/
theorem scanLine_dials (h : s.dials l r k flash) (run : (s.line l).run = none) :
    CallStands l ((s.digitPoint l flash).digitTaken l k) (s.scanLine l r) ∧ s.standbyTaken (s.scanLine l r) 1
      ∧ (flash = true → (s.line l).call = .exchange →
          (s.scanLine l r).marked s.link.mask .flash l (lineByte l :: stampBytes s.stamp)) := by
  have move := hookMove_dials h
  obtain ⟨watched, _⟩ := h
  let c := (s.digitPoint l flash).digitTaken l k
  let u := c.standbyEvent .digit
  have kept : Kept (s.digitPoint l flash) c := digitTaken_kept
  have ringing : SameRinging l (s.digitPoint l flash) c := digitTaken_sameRinging
  have stamp : c.stamp = s.stamp := kept.stamp.trans (hookMoved_stamp _ _ _)
  have handed : (s.digitPoint l flash).handItems l (digitOf k :: if flash then [.flash] else []) =
      if flash then u.callFlash l else u := by
    rw [handItems_cons, handItem_digitOf]
    cases flash <;> rfl
  have quiet : (c.line l).run = none := by rw [ringing.run, digitPoint, line_hookMoved, run]
  have scan := scanLine_handed watched move
    (by
      change (((s.digitPoint l flash).handItems l _).line l).run = none
      rw [handed]
      cases flash <;> simpa [u] using quiet)
    (.inl (by nofun))
  change s.scanLine l r = ((s.digitPoint l flash).handItems l _).updLine l _ at scan
  rw [handed] at scan
  have taken : s.standbyTaken u 1 :=
    standbyTaken_of_before (standbyEvent_taken (ev := .digit) (by decide) c) ringing.arb stamp kept.mask
  rw [scan]
  cases flash with
  | false => exact ⟨(CallStands.standbyEvent l .digit c).trans (.withTrack _ _ _), taken, nofun⟩
  | true =>
    refine ⟨(CallStands.standbyEvent l .digit c).trans ((CallStands.callFlash l u).trans (.withTrack _ _ _)),
      standbyTaken_callFlash taken l, fun _ exchange => ?_⟩
    have stays : (u.line l).call = .exchange := by
      rw [line_standbyEvent, digitTaken_exchange]
      rw [digitPoint, line_hookMoved, exchange]
    have reported : Kept c u := Kept.standbyEvent _
    have marked := markLine_marked .flash l (lineByte l :: stampBytes u.stamp) u
    rw [← callFlash_exchange stays, reported.stamp, stamp, reported.mask, kept.mask] at marked
    exact marked

/-! ### The digit, call state by call state -/

/-- A line in DIAL that holds a digit more, its interdigit timer armed (R71). -/
def digitHeld (l : LineNo) (d : Digit) (s : State) : State :=
  s.updLine l fun x => { x with digits := x.digits.append d, timer := some (s.settings.interdigit * 10) }

theorem line_digitHeld (l : LineNo) (d : Digit) (s : State) : (s.digitHeld l d).line l =
    { s.line l with digits := (s.line l).digits.append d, timer := some (s.settings.interdigit * 10) } := by
  simp [digitHeld]

theorem active_digitHeld (l m : LineNo) (d : Digit) (s : State) :
    ((s.digitHeld l d).line m).active = (s.line m).active := by
  rw [digitHeld, line_updLine]
  split
  · next same => rw [same]
  · rfl

section

variable {d : Digit} {ds : List Digit} (held : ((s.line l).digits.append d).digits = ds)

include held

theorem consultDialPlan_digitHeld : s.dialDigit l d = match judgeDigits s.dialPlan ds with
    | .collect => s.digitHeld l d
    | .complete a => (s.digitHeld l d).dialAction l a
    | .unmatched =>
      if (s.line l).unmatchedToExchange then (s.digitHeld l d).enterExchWait l
      else (s.digitHeld l d).endCall l .reorder .noMatch := by
  subst held
  change (s.digitHeld l d).consultDialPlan l = _
  rw [consultDialPlan, line_digitHeld]
  rfl

/-- Digits that may yet complete an entry are collected (R100). -/
theorem dialDigit_collect (judged : judgeDigits s.dialPlan ds = .collect) : s.dialDigit l d = s.digitHeld l d := by
  rw [consultDialPlan_digitHeld held, judged]

/-- To the exchange, by an entry or unmatched (R100, R101). -/
theorem dialDigit_exchange (judged : judgeDigits s.dialPlan ds = .complete .exchange
      ∨ (judgeDigits s.dialPlan ds = .unmatched ∧ (s.line l).opts.getLsbD 3 = true)) :
    s.dialDigit l d = (s.digitHeld l d).enterExchWait l := by
  rw [consultDialPlan_digitHeld held]
  rcases judged with judged | ⟨judged, on⟩
  · rw [judged]
    rfl
  · rw [judged]
    exact if_pos on

/-- Refused, by an entry or unmatched (R100, R101). -/
theorem dialDigit_refuse (judged : judgeDigits s.dialPlan ds = .complete .refuse
      ∨ (judgeDigits s.dialPlan ds = .unmatched ∧ (s.line l).opts.getLsbD 3 = false)) :
    s.dialDigit l d = (s.digitHeld l d).endCall l .reorder .noMatch := by
  rw [consultDialPlan_digitHeld held]
  rcases judged with judged | ⟨judged, off⟩
  · rw [judged]
    rfl
  · rw [judged]
    exact if_neg (Bool.eq_false_iff.mp off)

/-- To the party that the last digit names (R101). -/
theorem dialDigit_party (judged : judgeDigits s.dialPlan ds = .complete .revertParty) :
    s.dialDigit l d = (s.digitHeld l d).revertChecks l ((s.digitHeld l d).partyOfDigit l ds) := by
  rw [consultDialPlan_digitHeld held, judged]
  dsimp only
  rw [dialAction, line_digitHeld, held]

/-- To the party that the suffix of the last three digits names (R101). -/
theorem dialDigit_suffix (judged : judgeDigits s.dialPlan ds = .complete .revertSuffix) :
    s.dialDigit l d = (s.digitHeld l d).revertChecks l ((s.digitHeld l d).decodeSuffix (suffixOf ds)) := by
  rw [consultDialPlan_digitHeld held, judged]
  dsimp only
  rw [dialAction, line_digitHeld, held]

end

theorem callDigit_dial (d : Digit) (h : (s.line l).call = .dial) : s.callDigit l d = s.dialDigit l d := by
  simp only [callDigit, h]

theorem callDigit_exchWait (d : Digit) (h : (s.line l).call = .exchWait) : s.callDigit l d =
    s.updLine l fun x => { x with digits := x.digits.append d, out := x.out.append d } := by simp only [callDigit, h]

theorem callDigit_exchange (d : Digit) (h : (s.line l).call = .exchange) : s.callDigit l d =
    (s.updLine l fun x => { x with out := x.out.append d }).markDigits l := by simp only [callDigit, h]

theorem callDigitError_dial (h : (s.line l).call = .dial) : s.callDigitError l = s.endCall l .reorder .badDigit := by
  simp only [callDigitError, h]

theorem callDigitError_exchWait (h : (s.line l).call = .exchWait) : s.callDigitError l =
    s.updLine l fun x => { x with out := { x.out with digitError := true } } := by simp only [callDigitError, h]

theorem callDigitError_exchange (h : (s.line l).call = .exchange) : s.callDigitError l =
    (s.updLine l fun x => { x with out := { x.out with digitError := true } }).markDigits l := by
  simp only [callDigitError, h]

theorem line_markDigits (l : LineNo) (s : State) : (s.markDigits l).line l = s.line l := by simp [markDigits]

/-- A DIGITS report carries the whole outgoing list and its flags (R75). -/
theorem markDigits_marked (l : LineNo) (s : State) : (s.markDigits l).marked s.link.mask .digits l
    ([lineByte l, toByte ((if (s.line l).out.overflow then 1 else 0) + (if (s.line l).out.digitError then 2 else 0))]
      ++ digitList (s.line l).out.digits) := markLine_marked _ _ _ _

section

variable (dial : (s.line l).call ≠ .dial) (wait : (s.line l).call ≠ .exchWait) (exchange : (s.line l).call ≠ .exchange)

include dial wait exchange

theorem callDigit_elsewhere (d : Digit) : s.callDigit l d = s := by
  unfold callDigit
  split
  · contradiction
  · contradiction
  · contradiction
  all_goals rfl

theorem callDigitError_elsewhere : s.callDigitError l = s := by
  unfold callDigitError
  split
  · contradiction
  · contradiction
  · contradiction
  all_goals rfl

/-- A digit or an error in a state that takes none is disregarded (R64). -/
theorem digitTaken_elsewhere : s.digitTaken l k = s := by
  unfold digitTaken
  split
  · exact callDigit_elsewhere dial wait exchange _
  all_goals exact callDigitError_elsewhere dial wait exchange

end

/-! ### What a digit leaves in DIAL -/

/-- The scan has led a line in DIAL from `s` to `u`: it holds the digits `held`, and nothing has been told of it. -/
structure DialPoint (s u : State) (l : LineNo) (held : DigitBuffer) : Prop where
  line : u.line l = { s.line l with hook := (u.line l).hook, digits := held, timer := (u.line l).timer }
  dial : (s.line l).call = .dial
  active : ∀ m, (u.line m).active = (s.line m).active
  link : u.link = s.link
  stamp : u.stamp = s.stamp
  settings : u.settings = s.settings
  numbering : u.numbering = s.numbering

namespace DialPoint

variable {u : State} {held : DigitBuffer}

theorem ofDigitPoint (flash : Bool) (dial : (s.line l).call = .dial) :
    DialPoint s (s.digitPoint l flash) l (s.line l).digits :=
  ⟨by rw [line_digitPoint], dial, fun m => active_digitPoint l m flash s, rfl, hookMoved_stamp _ _ _, rfl, rfl⟩

/-- A digit more is held. -/
theorem digitHeld (h : DialPoint s v l held) (d : Digit) : DialPoint s (v.digitHeld l d) l (held.append d) where
  line := by rw [line_digitHeld, h.line]
  dial := h.dial
  active m := (active_digitHeld l m d v).trans (h.active m)
  link := h.link
  stamp := h.stamp
  settings := h.settings
  numbering := h.numbering

variable (h : DialPoint s u l held)

include h

theorem call : (u.line l).call = (s.line l).call := by rw [h.line]

theorem inDial : (u.line l).call = .dial := h.call.trans h.dial

theorem digits : (u.line l).digits = held := by rw [h.line]

theorem record : (u.line l).record = (s.line l).record := by rw [h.line]

/-- The digits go to the exchange (R73). -/
theorem requests (stands : CallStands l (u.enterExchWait l) t) :
    (t.line l).call = .exchWait ∧ s.tells t l none ∧ (t.line l).digits = held
      ∧ (t.line l).timer = some (s.settings.exchangeWait * 10) ∧ (t.line l).out = ⟨[], false, false⟩
      ∧ ∀ rec, (s.line l).record = some rec → (t.line l).record = some rec ∧ t.marked s.link.mask .exchangeRequest l
          ([lineByte l, rec.kind.code, slotByte rec.caller] ++ digitList held.digits) := by
  have told := enterExchWait_tells (s := u) (l := l) (by rw [h.inDial]; nofun)
  have stood := stands.tells (tells_of_before told h.stamp (by rw [h.link]) h.call)
  have line := stands.line
  rw [line_enterExchWait, h.settings] at line
  rw [line]
  refine ⟨rfl, stood, h.digits, rfl, rfl, fun rec opened => ⟨h.record.trans opened, ?_⟩⟩
  have marked := enterExchWait_marked (h.record.trans opened)
  rw [h.link, h.digits] at marked
  exact stands.marked marked (by decide)

/-- The call is refused with a cause (R71, R72, R101). -/
theorem refuses {cause : EndCause} (stands : CallStands l (u.endCall l .reorder cause) t) :
    (t.line l).call = .reorder ∧ (t.line l).timer = some (s.settings.reorder * 10)
      ∧ ∀ rec, (s.line l).record = some rec → s.ends t l rec held cause ∧ s.tells t l (some cause) := by
  have line := stands.line
  rw [line_endCall, h.settings] at line
  rw [line]
  refine ⟨rfl, rfl, fun rec opened => ?_⟩
  obtain ⟨_, _, ended, told⟩ := endCall_refused cause h.inDial (h.record.trans opened)
  rw [h.digits] at ended
  exact ⟨stands.ends (ends_of_before ended h.stamp (by rw [h.link]) (by rw [pendingLine, h.link]; rfl)),
    stands.tells (tells_of_before told h.stamp (by rw [h.link]) h.call)⟩

/-- The revert checks are made for a party (R102, R103). -/
theorem judges {rec : Record} {called : Option (LineNo × Slot)} (opened : (s.line l).record = some rec)
    (stands : CallStands l (u.revertChecks l called) t) : s.revertJudged t l rec held called := by
  have judged := revertChecks_judged called h.inDial (h.record.trans opened)
  rw [h.digits] at judged
  exact revertJudged_of_before (stands.revertJudged judged) (by rw [h.line]) (by rw [h.line]) (by rw [h.line]) h.call
    h.link h.stamp h.settings

/-- The party is that of the last digit, on the caller's own line (R101). -/
theorem judges_party {rec : Record} {front : List Digit} {last : Digit} (opened : (s.line l).record = some rec)
    (stands : CallStands l (u.revertChecks l (u.partyOfDigit l (front ++ [last]))) t) :
    (∀ j : Slot, last.val = j.val + 1 → ((s.line l).active.entries.get j).present = true →
        s.revertJudged t l rec held (some (l, j)))
      ∧ ((∀ j : Slot, last.val = j.val + 1 → ((s.line l).active.entries.get j).present = false) →
        s.revertJudged t l rec held none) := by
  obtain ⟨present, absent⟩ := partyOfDigit_last (s := u) (l := l) (front := front) (last := last)
  rw [h.active] at present absent
  refine ⟨fun j names there => h.judges opened ?_, fun gone => h.judges opened ?_⟩
  · rwa [← present j names there]
  · rwa [← absent gone]

/-- The party is that of the suffix of the last three digits (R18, R101). -/
theorem judges_suffix {rec : Record} {n : Nat} (opened : (s.line l).record = some rec)
    (stands : CallStands l (u.revertChecks l (u.decodeSuffix n)) t) :
    s.revertJudged t l rec held (s.decodeSuffix n) := by
  rw [decodeSuffix_congr n h.numbering h.active] at stands
  exact h.judges opened stands

end DialPoint

/-! ### What a digit leaves in EXCHANGE -/

/-- The outgoing list after a digit or an error stands in its DIGITS report (R75). -/
theorem markDigits_stands {u : State} {out : OutList} (stands : CallStands l (u.markDigits l) t)
    (uline : u.line l = { s.line l with hook := (u.line l).hook, out := out })
    (mask : u.link.mask = s.link.mask) :
    t.line l = { s.line l with hook := (u.line l).hook, out := out, track := (t.line l).track }
      ∧ t.marked s.link.mask .digits l
          ([lineByte l, toByte ((if out.overflow then 1 else 0) + (if out.digitError then 2 else 0))]
            ++ digitList out.digits) := by
  have marked := markDigits_marked l u
  rw [mask, uline] at marked
  exact ⟨by rw [stands.line, line_markDigits, uline], stands.marked marked (by decide)⟩

end State

end Sys2Proof.Machine

open Sys2Proof Sys2Proof.Machine

/-- Settles O36: the scan that completes the digit, then the call states that take it, each from the state at which the call
controller takes the digit. -/
theorem digitsTakenByTheCallState : Obligations.DigitsTakenByTheCallState := by
  intro l r i k flash s dials row run x
  have watched := dials.1
  obtain ⟨stands, taken, flashed⟩ := State.scanLine_dials dials run
  let v := s.digitPoint l flash
  have vline := State.line_digitPoint l flash s
  have vcall : (v.line l).call = x.call := by rw [vline]
  refine ⟨s.scanLine l r, State.exec_digitComplete dials row, State.scanLine_onlyLine watched.2.1 watched.2.2.1, taken,
    by rw [State.scanLine_hook watched, State.hookMove_dials dials], flashed, fun d digit => ?_,
    fun error => ?_, fun dial wait exchange => ?_⟩
  · intro held sent
    rw [State.digitTaken_digit digit] at stands
    refine ⟨fun dial => ?_, fun wait => ?_, fun exchange => ?_⟩
    · rw [State.callDigit_dial d (vcall.trans dial)] at stands
      have point : State.DialPoint s (v.digitHeld l d) l held := (State.DialPoint.ofDigitPoint flash dial).digitHeld d
      have digits : ((v.line l).digits.append d).digits = held.digits := by rw [vline]; rfl
      have opts : (v.line l).opts = x.opts := by rw [vline]
      refine ⟨fun collect => ?_, fun request => ?_, fun refuse => ?_, fun party rec front last opened ends => ?_,
        fun suffix rec front a b c opened ends => ?_⟩
      · rw [State.dialDigit_collect digits collect] at stands
        rw [stands.line, State.line_digitHeld, vline]
        exact ⟨dial, rfl, rfl, rfl⟩
      · rw [State.dialDigit_exchange digits (by rwa [opts])] at stands
        exact point.requests stands
      · rw [State.dialDigit_refuse digits (by rwa [opts])] at stands
        exact point.refuses stands
      · rw [State.dialDigit_party digits party, ends] at stands
        exact point.judges_party opened stands
      · rw [State.dialDigit_suffix digits suffix, ends, State.suffixOf_append] at stands
        exact point.judges_suffix opened stands
    · rw [State.callDigit_exchWait d (vcall.trans wait)] at stands
      rw [stands.line, State.line_updLine, if_pos rfl, vline]
      exact ⟨wait, rfl, rfl, rfl, rfl⟩
    · rw [State.callDigit_exchange d (vcall.trans exchange)] at stands
      obtain ⟨line, marked⟩ := State.markDigits_stands (s := s) (out := sent) stands
        (by rw [State.line_updLine, if_pos rfl, vline]; rfl) rfl
      rw [line]
      exact ⟨exchange, rfl, rfl, rfl, marked⟩
  · rw [State.digitTaken_error error] at stands
    refine ⟨fun dial => ?_, fun wait => ?_, fun exchange => ?_⟩
    · rw [State.callDigitError_dial (vcall.trans dial)] at stands
      obtain ⟨call, _, ended⟩ := (State.DialPoint.ofDigitPoint flash dial).refuses stands
      exact ⟨call, ended⟩
    · rw [State.callDigitError_exchWait (vcall.trans wait)] at stands
      rw [stands.line, State.line_updLine, if_pos rfl, vline]
      exact ⟨wait, rfl, rfl, rfl⟩
    · rw [State.callDigitError_exchange (vcall.trans exchange)] at stands
      obtain ⟨line, marked⟩ := State.markDigits_stands (s := s) (out := { x.out with digitError := true }) stands
        (by rw [State.line_updLine, if_pos rfl, vline]) rfl
      rw [line]
      exact ⟨exchange, rfl, marked⟩
  · rw [State.digitTaken_elsewhere (by rwa [vcall]) (by rwa [vcall]) (by rwa [vcall])] at stands
    rw [stands.line, vline]
    exact ⟨rfl, rfl, rfl, rfl⟩
end

section
/-! The party test (R52, R53): the scans that add to it, and its result in IDENT (R70) and in REVERT_CHECK (R110 to R112). -/

namespace Sys2Proof.Machine

/-! ### The identified party -/

/-- The one member of a list of slots chosen by a property is the one slot that has it. -/
theorem theOnly_filter_slots {p : Slot → Bool} {j : Slot} :
    theOnly (slots.filter p) = some j ↔ p j = true ∧ ∀ k, p k = true → k = j := by
  have only : theOnly (slots.filter p) = some j ↔ slots.filter p = [j] := by
    rcases slots.filter p with _ | ⟨a, _ | ⟨b, rest⟩⟩ <;> simp [theOnly]
  have distinct : (slots.filter p).Nodup := by
    rw [slots_eq]
    exact (List.nodup_finRange 8).filter p
  rw [only, ← List.perm_singleton, List.perm_ext_iff_of_nodup distinct (List.nodup_singleton j)]
  simp only [List.mem_filter, mem_slots, true_and, List.mem_singleton]
  exact ⟨fun h => ⟨(h j).mpr rfl, fun k => (h k).mp⟩, fun ⟨has, unique⟩ k => ⟨unique k, fun same => same ▸ has⟩⟩

theorem theOnly_slotsOnSide {tab : PartyTable} {d : Side} {j : Slot} : theOnly (tab.slotsOnSide d) = some j ↔
    ((tab.entries.get j).present = true ∧ (tab.entries.get j).side = d)
      ∧ ∀ k, (tab.entries.get k).present = true ∧ (tab.entries.get k).side = d → k = j := by
  rw [PartyTable.slotsOnSide, theOnly_filter_slots]
  simp only [Bool.and_eq_true, beq_iff_eq]

/-- The party that a result identifies: the only one on its side, for a result that names a side (R70). -/
theorem Line.identified_eq_some {x : Line} {res : TestResult} {j : Slot} : x.identified res = some j ↔
    (res = .tip ∧ ((x.active.entries.get j).present = true ∧ (x.active.entries.get j).side = .tip)
        ∧ ∀ k, (x.active.entries.get k).present = true ∧ (x.active.entries.get k).side = .tip → k = j)
      ∨ (res = .ring ∧ ((x.active.entries.get j).present = true ∧ (x.active.entries.get j).side = .ring)
        ∧ ∀ k, (x.active.entries.get k).present = true ∧ (x.active.entries.get k).side = .ring → k = j) := by
  cases res with
  | tip => simp [identified, theOnly_slotsOnSide]
  | ring => simp [identified, theOnly_slotsOnSide]
  | both | neither => simp [identified]

/-- The result handed on, with the sides of a line of reversed sides exchanged (R53, R55). -/
theorem Line.testResult_eq (x : Line) (tipSum ringSum h : Nat) : x.testResult tipSum ringSum h =
    if h ≤ (if x.opts.getLsbD 1 then ringSum / 3 else tipSum / 3) then
      (if h ≤ (if x.opts.getLsbD 1 then tipSum / 3 else ringSum / 3) then .both else .tip)
    else (if h ≤ (if x.opts.getLsbD 1 then tipSum / 3 else ringSum / 3) then .ring else .neither) := by
  have reversed : x.sideReverse = x.opts.getLsbD 1 := rfl
  unfold testResult handedResult rawResult
  rw [reversed]
  cases x.opts.getLsbD 1 with
  | false => rfl
  | true => by_cases low : h ≤ tipSum / 3 <;> by_cases high : h ≤ ringSum / 3 <;> simp [low, high]

/-! ### An early lift -/

theorem TestResult.isSide_iff {res : TestResult} {d : Side} :
    res.isSide d = true ↔ (res = .tip ∧ d = .tip) ∨ (res = .ring ∧ d = .ring) := by
  cases res <;> cases d <;> decide

/-- An early lift: the result is the side of the caller's set and not of the called party's (R110). -/
theorem Line.earlyLift_iff {x : Line} {rec : Record} {called : Slot} {res : TestResult} (opened : x.record = some rec)
    (named : rec.called = some called) : x.earlyLift res = true ↔
      ∃ j, rec.caller = some j ∧ ((res = .tip ∧ (x.active.entries.get j).side = .tip
            ∧ (x.active.entries.get called).side ≠ .tip)
          ∨ (res = .ring ∧ (x.active.entries.get j).side = .ring ∧ (x.active.entries.get called).side ≠ .ring)) := by
  have caller : x.caller = rec.caller := by simp [Line.caller, opened]
  have calledIs : x.called = some called := by simp [Line.called, opened, named]
  unfold earlyLift
  rw [caller, calledIs]
  cases rec.caller with
  | none => simp
  | some i =>
    simp only [Bool.and_eq_true, Bool.not_eq_true', ← Bool.not_eq_true, TestResult.isSide_iff, Option.some.injEq,
      exists_eq_left']
    cases res <;> simp

namespace State

variable {s v t : State} {l : LineNo} {r : Reading}

/-! ### What the call controller does with a result -/

/-- The state of an identification before the line enters DIAL: record and report (R70). -/
def identifyReported (l : LineNo) (res : TestResult) (start : Stamp) (s : State) : State :=
  (s.updRecord l fun r => { r with idResult := some res, caller := (s.line l).identified res }).markLine .origination l
    ([lineByte l, slotByte ((s.line l).identified res), testResultCode (some res)] ++ stampBytes start)

theorem identify_eq {rec : Record} (res : TestResult) (h : (s.line l).record = some rec) :
    s.identify l res = (s.identifyReported l res rec.start).enter l .dial := by
  simp only [identify, h]
  rfl

theorem identifyReported_kept (res : TestResult) (start : Stamp) : Kept s (s.identifyReported l res start) :=
  (Kept.updRecord l fun r => { r with idResult := some res, caller := (s.line l).identified res }).trans
    (Kept.markLine .origination l _)

theorem line_identifyReported (res : TestResult) (start : Stamp) : (s.identifyReported l res start).line l =
    { s.line l with
      record := (s.line l).record.map fun r =>
        { r with idResult := some res, caller := (s.line l).identified res } } := by
  simp [identifyReported]

/-- The line whose caller a result identifies (R70). -/
theorem line_identify {rec : Record} (res : TestResult) (h : (s.line l).record = some rec) :
    (s.identify l res).line l =
      { s.line l with
        record := some { rec with idResult := some res, caller := (s.line l).identified res }
        call := .dial, timer := some (s.settings.firstDigit * 10), dialBegun := false
        track := (s.line l).trackAfter .dial } := by
  rw [identify_eq res h, line_enter, line_identifyReported, (identifyReported_kept res rec.start).settings, h]
  rfl

theorem identify_tells {rec : Record} (res : TestResult) (h : (s.line l).record = some rec)
    (away : (s.line l).call ≠ .dial) : s.tells (s.identify l res) l none := by
  have kept := identifyReported_kept (s := s) (l := l) res rec.start
  have call : ((s.identifyReported l res rec.start).line l).call = (s.line l).call := by rw [line_identifyReported]
  rw [identify_eq res h]
  exact tells_of_before (enter_tells (by rwa [call])) kept.stamp kept.mask call

/-- ORIGINATION stands marked with the caller, the result and the start of the call (R70). -/
theorem identify_marked {rec : Record} (res : TestResult) (h : (s.line l).record = some rec) :
    (s.identify l res).marked s.link.mask .origination l
      ([lineByte l, slotByte ((s.line l).identified res), testResultCode (some res)] ++ stampBytes rec.start) := by
  rw [identify_eq res h]
  exact (SameReport.enter .dial (by decide)).marked (markLine_marked .origination l _ (s.updRecord l _))

/-! ### The result in REVERT_CHECK -/

/-- An early lift before the third: counted, and back to REVERT_TONE (R110, R111). -/
theorem revertResult_early {rec : Record} {res : TestResult} (early : (s.line l).earlyLift res = true)
    (opened : (s.line l).record = some rec) (few : rec.early ≤ 1) :
    s.revertResult l res = (s.updRecord l fun r => { r with early := r.early + 1 }).enter l .revertTone := by
  have more : ¬3 ≤ rec.early + 1 := by omega
  simp only [revertResult, early, if_true, opened, if_neg more]

/-- The third early lift ends the call (R111). -/
theorem revertResult_third {rec : Record} {res : TestResult} (early : (s.line l).earlyLift res = true)
    (opened : (s.line l).record = some rec) (third : rec.early = 2) :
    s.revertResult l res = (s.updRecord l fun r => { r with early := r.early + 1 }).endCall l .reorder .earlyLift := by
  have enough : 3 ≤ rec.early + 1 := by omega
  simp only [revertResult, early, if_true, opened, if_pos enough]

/-- The state of an answer in REVERT_CHECK before the line enters REVERT_TALK: its stamp and report (R112). -/
def revertAnswered (l : LineNo) (s : State) : State :=
  (s.updRecord l fun r => { r with answer := some s.stamp }).markAnswer l ((s.line l).manner.getD .silent)

theorem revertResult_answer {res : TestResult} (lift : (s.line l).earlyLift res = false) :
    s.revertResult l res = (s.revertAnswered l).enter l .revertTalk := by
  simp only [revertResult, lift]
  rfl

theorem revertAnswered_kept : Kept s (s.revertAnswered l) :=
  (Kept.updRecord l fun r => { r with answer := some s.stamp }).trans (Kept.markAnswer l _)

theorem line_revertAnswered : (s.revertAnswered l).line l =
    { s.line l with record := (s.line l).record.map fun r => { r with answer := some s.stamp } } := by
  simp [revertAnswered]

/-- An ANSWER report carries the call's kind, the called slot and the manner of the lift (R112). -/
theorem markAnswer_marked {rec : Record} (m : Manner) (h : (s.line l).record = some rec) :
    (s.markAnswer l m).marked s.link.mask .answer l
      ([lineByte l, rec.kind.code, slotByte rec.called, m.code] ++ stampBytes s.stamp) := by
  simp only [markAnswer, h]
  exact markLine_marked _ _ _ _

theorem revertAnswered_marked {rec : Record} {m : Manner} (opened : (s.line l).record = some rec)
    (manner : (s.line l).manner = some m) : (s.revertAnswered l).marked s.link.mask .answer l
      ([lineByte l, rec.kind.code, slotByte rec.called, m.code] ++ stampBytes s.stamp) := by
  rw [revertAnswered, manner]
  exact markAnswer_marked (rec := { rec with answer := some s.stamp }) m (by simp [opened])

/-! ### The scans -/

theorem handResult_ident (res : TestResult) (h : (s.line l).call = .ident) : s.handResult l res = s.identify l res := by
  simp only [handResult, h]

theorem handResult_revertCheck (res : TestResult) (h : (s.line l).call = .revertCheck) :
    s.handResult l res = s.revertResult l res := by simp only [handResult, h]

/-- A result changes neither the run nor the arbiter (R70, R110 to R112). -/
theorem handResult_sameRinging (res : TestResult) : SameRinging l s (s.handResult l res) := by
  have answered (u : State) (m : Manner) : SameRinging l u (u.markAnswer l m) := by
    unfold markAnswer
    split
    · exact .refl l u
    · exact .markLine _ _
  unfold handResult
  split
  · exact ((SameRinging.updRecord _).trans (.markLine _ _)).trans (.enter _)
  · unfold revertResult
    dsimp only
    split
    · split
      · exact (SameRinging.updRecord _).trans (.enter _)
      · split
        · exact (SameRinging.updRecord _).trans (.endCall _ _)
        · exact (SameRinging.updRecord _).trans (.enter _)
    · exact ((SameRinging.updRecord _).trans (answered _ _)).trans (.enter _)
  all_goals exact .refl l s

/-- A result in REVERT_CHECK does not touch the party test (R110 to R112). -/
theorem revertResult_test (res : TestResult) : ((s.revertResult l res).line l).test = (s.line l).test := by
  unfold revertResult
  dsimp only
  split
  · split
    · rw [line_enter, line_updRecord]
    · split
      · rw [line_endCall, line_updRecord]
      · rw [line_enter, line_updRecord]
  · rw [line_enter, line_markAnswer, line_updRecord]

/-- The state at which the call controller takes the result of a party test (R52, R53). -/
def testPoint (l : LineNo) (s : State) : State := (s.countScan l).updLine l fun x => { x with test := PartyTest.idle }

@[simp] theorem line_testPoint (l : LineNo) (s : State) :
    (s.testPoint l).line l = { s.line l with test := PartyTest.idle } := by simp [testPoint]

theorem testPoint_stamp (l : LineNo) (s : State) : (s.testPoint l).stamp = s.stamp := stamp_countScan l s

/-- A party test suspends the hook machine (R50). -/
theorem suspended_testing (h : (s.line l).test.running = true) : (s.line l).suspended = true := by
  simp [Line.suspended, h]

/-- A scan of a party test before its third (R52). -/
theorem scanLine_testAdds (fitted : (s.line l).fitted = true) (present : r.present = true)
    (testing : (s.line l).test.running = true) (few : (s.line l).test.scans ≤ 1) (run : (s.line l).run = none) :
    s.scanLine l r = ((s.countScan l).updLine l fun x => { x with
        test := ⟨true, (s.line l).test.scans + 1, (s.line l).test.tipSum + r.tip, (s.line l).test.ringSum + r.ring⟩ }).updLine
      l fun x => { x with track := ⟨0, 0⟩ } := by
  refine scanLine_untracked fitted present ?_ (by simpa using run) (suspended_untracked _ (suspended_testing testing))
  have fewer : (s.line l).test.scans < 2 := by omega
  simp [loopScan, testing, testScan, fewer]

variable {tip ring : Nat}

/-- The third scan of a party test is the one that PARTY_TEST_RESULT names (R53; log 4). -/
theorem exec_partyTestResult {i : Instr} (h : s.endsTest l r tip ring) (row : i = .partyTestResult l r ∨ i = .scan l r) :
    exec i s = .next (s.scanLine l r).settleLink := by
  obtain ⟨paced, fitted, present, testing, third, _⟩ := h
  rcases row with rfl | rfl
  · refine scanning_found (finds := fun u => (u.line l).completesTest r) paced ?_
    simp [Line.completesTest, Line.judgedScan, fitted, present, testing, third]
  · exact exec_scan paced

/-- What the call controller does with the result stands at the end of the scan (R52, R53, R56). -/
theorem scanLine_endsTest (h : s.endsTest l r tip ring) (run : (s.line l).run = none) :
    let res := (s.line l).testResult ((s.line l).test.tipSum + r.tip) ((s.line l).test.ringSum + r.ring)
      s.settings.idThreshold
    CallStands l ((s.testPoint l).handResult l res) (s.scanLine l r) ∧ (s.scanLine l r).arb = s.arb := by
  intro res
  obtain ⟨paced, fitted, present, testing, third, _⟩ := h
  have ringing : SameRinging l (s.testPoint l) ((s.testPoint l).handResult l res) := handResult_sameRinging res
  have loop : (s.countScan l).loopScan l r = (s.testPoint l).handResult l res := by
    simp [loopScan, testing, testScan, third]
    rfl
  have scan := scanLine_untracked fitted present loop (by rw [ringing.run, line_testPoint, run])
    (suspended_untracked _ (suspended_testing testing))
  rw [scan]
  exact ⟨.withTrack _ _ _, ringing.arb⟩

end State

end Sys2Proof.Machine

open Sys2Proof Sys2Proof.Machine

/-- Settles O37: a scan of a test before its third, then the result in IDENT and in REVERT_CHECK. -/
theorem partyTestResultIsTaken : Obligations.PartyTestResultIsTaken := by
  refine ⟨fun l r s paced fitted present testing few run => ?_, fun l r i tip ring s rec ends row ident opened run => ?_,
    fun l r i tip ring s rec called ends row check opened named run => ?_⟩
  · refine ⟨s.scanLine l r, State.exec_scan paced, State.scanLine_onlyLine fitted present, ?_⟩
    rw [State.scanLine_testAdds fitted present testing few run]
    refine ⟨rfl, rfl, ?_⟩
    rw [State.line_updLine, if_pos rfl, State.line_updLine, if_pos rfl, State.line_countScan]
  · intro x h low high result on
    obtain ⟨stands, arb⟩ := State.scanLine_endsTest ends run
    have result_eq : x.testResult (x.test.tipSum + r.tip) (x.test.ringSum + r.ring) h = result := by
      obtain ⟨_, _, _, _, _, rfl, rfl⟩ := ends
      exact x.testResult_eq _ _ h
    let v := s.testPoint l
    have vline : v.line l = { x with test := PartyTest.idle } := State.line_testPoint l s
    have vopen : (v.line l).record = some rec := by rw [vline]; exact opened
    have videntified : (v.line l).identified result = x.identified result := by rw [vline]; rfl
    rw [result_eq, State.handResult_ident result (by rw [vline]; exact ident)] at stands
    have line := State.line_identify result vopen
    have told := State.identify_tells result vopen (by rw [vline]; exact fun c => nomatch ident.symm.trans c)
    have marked := State.identify_marked result vopen
    rw [videntified] at marked line
    refine ⟨s.scanLine l r, x.identified result, State.exec_partyTestResult ends row,
      State.scanLine_onlyLine ends.2.1 ends.2.2.1, ?_,
      stands.tells (State.tells_of_before told (State.testPoint_stamp l s) rfl (by rw [vline])), ?_, ?_, ?_, ?_, ?_,
      stands.marked marked (by decide), fun j => Line.identified_eq_some, arb⟩
    · rw [stands.line, line]
    · rw [stands.line, line]
      rfl
    · rw [stands.line, line]
    · rw [stands.line, line, vline]
      rfl
    · rw [stands.line, line, vline]
    · rw [stands.line, line]
  · intro x result side early
    obtain ⟨stands, _⟩ := State.scanLine_endsTest ends run
    let v := s.testPoint l
    have vline : v.line l = { x with test := PartyTest.idle } := State.line_testPoint l s
    have vstamp : v.stamp = s.stamp := State.testPoint_stamp l s
    have vcall : (v.line l).call = x.call := by rw [vline]
    have vopen : (v.line l).record = some rec := by rw [vline]; exact opened
    have vearly : (v.line l).earlyLift result = true ↔ early := by
      rw [Line.earlyLift_iff vopen named, vline]
    rw [State.handResult_revertCheck _ (vcall.trans check)] at stands
    let counted := v.updRecord l fun q => { q with early := q.early + 1 }
    have cline : counted.line l = { x with
        test := PartyTest.idle, record := some { rec with early := rec.early + 1 } } := by
      rw [State.line_updRecord, vopen, vline]
      rfl
    have ccall : (counted.line l).call = x.call := by rw [cline]
    refine ⟨s.scanLine l r, State.exec_partyTestResult ends row, State.scanLine_onlyLine ends.2.1 ends.2.2.1,
      ?_, fun isEarly few => ?_, fun isEarly third => ?_, fun isNot => ?_⟩
    · rw [stands.line, State.revertResult_test, vline]
      rfl
    · rw [State.revertResult_early (vearly.mpr isEarly) vopen few] at stands
      have told := State.enter_tells (s := counted) (l := l) (new := .revertTone) (by rw [ccall, check]; nofun)
      refine ⟨by rw [stands.line, State.line_enter], by rw [stands.line, State.line_enter]; rfl, ?_,
        stands.tells (State.tells_of_before told vstamp rfl ccall)⟩
      rw [stands.line, State.line_enter, cline]
    · rw [State.revertResult_third (vearly.mpr isEarly) vopen third] at stands
      have told := State.endCall_tells (s := counted) (l := l) (new := .reorder) .earlyLift
        (by rw [ccall, check]; nofun)
      have ended := State.endCall_ends (s := counted) (l := l) (new := .reorder) .earlyLift (by rw [cline])
      rw [cline] at told ended
      rw [third] at ended
      exact ⟨by rw [stands.line, State.line_endCall], by rw [stands.line, State.line_endCall]; rfl,
        stands.ends (State.ends_of_before ended vstamp rfl rfl), stands.tells (State.tells_of_before told vstamp rfl ccall)⟩
    · rw [State.revertResult_answer (Bool.eq_false_iff.mpr (vearly.not.mpr isNot))] at stands
      have kept := State.revertAnswered_kept (s := v) (l := l)
      have aline := State.line_revertAnswered (s := v) (l := l)
      have acall : ((v.revertAnswered l).line l).call = x.call := by rw [aline, vcall]
      have told := State.enter_tells (s := v.revertAnswered l) (l := l) (new := .revertTalk)
        (by rw [acall, check]; nofun)
      refine ⟨by rw [stands.line, State.line_enter], by rw [stands.line, State.line_enter]; rfl,
        stands.tells (State.tells_of_before told (kept.stamp.trans vstamp) kept.mask acall), ?_, fun m manner => ?_⟩
      · rw [stands.line, State.line_enter, aline, vopen, vstamp]
        rfl
      · have marked := State.revertAnswered_marked vopen (by rw [vline]; exact manner)
        rw [vstamp, named] at marked
        exact stands.marked ((SameReport.enter .revertTalk (by decide)).marked marked) (by decide)
end

section
/-! The works of a boundary or step event that a sender may hold back (R16, R84, R85, R166), and the commands that take them
(log 6). -/

namespace Sys2Proof.Machine

namespace State

variable {s t u : State} {l : LineNo}

/-- A work taken out of those that are due, by work that leaves the other lines alone. -/
theorem OnlyLine.of_due {ws : List Work} (k : Kept { s with due := ws } t) (h : Local l { s with due := ws } t) :
    s.OnlyLine l t := by
  obtain ⟨⟨numbering, cadence, edit, dialPlan, settings, timebase, pending⟩, arb, link, plan, lines, rows⟩ :=
    OnlyLine.of_kept k h
  exact ⟨⟨numbering, cadence, edit, dialPlan, settings, timebase, pending⟩, arb, link, plan, lines, rows⟩

/-- A held work that occurs is taken out of the works due, and done (log 6). -/
theorem occurring_due {w : Work} {occurs : Bool} (due : w ∈ s.due) (found : occurs = true) :
    occurring (s.isDue w && occurs) (fun t => t.takeDue w) s =
      .next ({ s with due := s.due.erase w }.doWork w).settleLink := by
  have held : s.isDue w = true := List.contains_iff_mem.mpr due
  rw [held, found]
  rfl

theorem doWork_due (w : Work) (s : State) : (s.doWork w).due = s.due := due_of_given (doWork_given w s)

/-! ### A pending alarm -/

/-- There is nothing to do for a line away from IDLE, or with no alarm pending (R84). -/
theorem pendingAlarmStep_rests (h : (s.line l).call ≠ .idle ∨ (s.line l).alarmPending = none) :
    s.pendingAlarmStep l = s := by
  unfold pendingAlarmStep
  split
  · next idle pending =>
    rw [idle, pending] at h
    simp at h
  · rfl

section

variable {n : Nat} (idle : (s.line l).call = .idle) (pending : (s.line l).alarmPending = some n)

include idle pending

theorem pendingAlarmStep_starts {v : Voice} (voice : (s.line l).alarmVoice = some v) :
    s.pendingAlarmStep l = s.startAlarm l v n := by simp only [pendingAlarmStep, idle, pending, voice]

theorem pendingAlarmStep_drops (voice : (s.line l).alarmVoice = none) : s.pendingAlarmStep l =
    (s.updLine l fun x => { x with alarmPending := none }).markState l .idle none := by
  simp only [pendingAlarmStep, idle, pending, voice]

end

/-- An alarm as it stands before its request: the call open, the line in ALARM_RING (R84). -/
def alarmOpened (l : LineNo) (n : Nat) (s : State) : State :=
  ((s.openCall l (Record.opened .alarm s.stamp)).updLine l fun x =>
    { x with alarmPending := none, alarmCount := n }).enter l .alarmRing

theorem startAlarm_eq (v : Voice) (n : Nat) :
    s.startAlarm l v n = (s.alarmOpened l n).request l (Entry.new .alarm .alarm v none) := rfl

theorem line_alarmOpened (n : Nat) : (s.alarmOpened l n).line l = { s.line l with
    record := some (Record.opened .alarm s.stamp), digits := DigitBuffer.empty, out := OutList.empty
    alarmPending := none, alarmCount := n, call := .alarmRing, timer := none, dialBegun := false
    track := (s.line l).trackAfter .alarmRing } := by
  rw [alarmOpened, line_enter]
  simp [openCall, Settings.armed, Line.trackAfter]

theorem alarmOpened_tells (n : Nat) (h : (s.line l).call ≠ .alarmRing) : s.tells (s.alarmOpened l n) l none :=
  tells_of_before (enter_tells (by simpa [openCall] using h)) rfl rfl (by simp [openCall])

/-- The line of an alarm that starts: the request leaves it alone (R84, R125). -/
theorem line_startAlarm (v : Voice) (n : Nat) : (s.startAlarm l v n).line l = (s.alarmOpened l n).line l := by
  rw [startAlarm_eq, line_request (by nofun)]

theorem startAlarm_tells (v : Voice) (n : Nat) (h : (s.line l).call ≠ .alarmRing) :
    s.tells (s.startAlarm l v n) l none := by
  unfold tells
  rw [line_startAlarm]
  exact (SameReport.request _ (by decide)).marked (alarmOpened_tells n h)

/-- The entry of an alarm that starts, waiting or placed at once (R84, R125). -/
theorem row_startAlarm (v : Voice) (n : Nat) : ∃ e, (s.startAlarm l v n).row l = some e ∧ e.cls = .alarm
    ∧ e.reqType = .alarm ∧ e.voiceB = none ∧ e.voiceA = v := by
  rw [startAlarm_eq]
  rcases row_request l (Entry.new .alarm .alarm v none) (s.alarmOpened l n) with waits | ⟨φ, placed⟩
  · exact ⟨_, waits, rfl, rfl, rfl, rfl⟩
  · exact ⟨_, placed, rfl, rfl, rfl, rfl⟩

/-- A pending alarm that finds its line IDLE is dropped, where the line has no alarm voice, or starts (R84). -/
theorem pendingAlarmStep_taken {n : Nat} (idle : (s.line l).call = .idle) (pending : (s.line l).alarmPending = some n) :
    let t := s.pendingAlarmStep l
    (t.line l).alarmPending = none ∧ s.tells t l none
      ∧ ((s.line l).alarmVoice = none → t.line l = { s.line l with alarmPending := none } ∧ t.arb = s.arb)
      ∧ ∀ v, (s.line l).alarmVoice = some v →
          t.line l = (s.alarmOpened l n).line l
            ∧ ∃ e, t.row l = some e ∧ e.cls = .alarm ∧ e.reqType = .alarm ∧ e.voiceB = none ∧ e.voiceA = v := by
  intro t
  cases voice : (s.line l).alarmVoice with
  | none =>
    have dropped : t = (s.updLine l fun x => { x with alarmPending := none }).markState l .idle none :=
      pendingAlarmStep_drops idle pending voice
    have line : t.line l = { s.line l with alarmPending := none } := by
      rw [dropped, markState, line_markLine, line_updLine, if_pos rfl]
    have told : s.tells t l none := by
      unfold tells
      rw [line, idle, dropped, markState, line_updLine, if_pos rfl]
      dsimp only
      rw [idle]
      exact markLine_marked .state l _ (s.updLine l _)
    exact ⟨by rw [line], told, fun _ => ⟨line, by rw [dropped, markState, markLine_arb]; rfl⟩, nofun⟩
  | some v =>
    have started : t = s.startAlarm l v n := pendingAlarmStep_starts idle pending voice
    have line : t.line l = (s.alarmOpened l n).line l := by rw [started, line_startAlarm]
    refine ⟨by rw [line, line_alarmOpened], ?_, nofun, fun w same => ⟨line, ?_⟩⟩
    · rw [started]
      exact startAlarm_tells v n (by rw [idle]; nofun)
    · obtain rfl := Option.some.inj same
      rw [started]
      exact row_startAlarm v n

theorem alarmVoice_none {x : Line} (h : x.active.alarmPattern = none ∨ x.loads.get x.active.alarmChannel = 0) :
    x.alarmVoice = none := by
  unfold Line.alarmVoice
  split
  · rfl
  · next pattern =>
    rcases h with none' | unloaded
    · exact nomatch none'.symm.trans pattern
    · exact if_pos unloaded

theorem alarmVoice_some {x : Line} {p : PatternNo} (pattern : x.active.alarmPattern = some p)
    (loaded : x.loads.get x.active.alarmChannel ≠ 0) : x.alarmVoice =
      some ⟨.bridged, x.active.alarmChannel, p, x.loads.get x.active.alarmChannel⟩ := by
  simp only [Line.alarmVoice, pattern, if_neg loaded]

/-! ### The alarm count -/

theorem alarmCountStep_rests (h : (s.line l).call ≠ .alarmRing) : s.alarmCountStep l = s := if_neg h

theorem alarmCountStep_counts (ring : (s.line l).call = .alarmRing) (more : 2 ≤ (s.line l).alarmCount) :
    s.alarmCountStep l = s.updLine l fun x => { x with alarmCount := (s.line l).alarmCount - 1 } := by
  rw [alarmCountStep, if_pos ring]
  exact if_neg (by omega)

/-- The last frame of an alarm ends it (R85). -/
theorem alarmCountStep_ends (ring : (s.line l).call = .alarmRing) (last : (s.line l).alarmCount = 1) :
    s.alarmCountStep l = (s.updLine l fun x => { x with alarmCount := 0 }).endAlarm l := by
  rw [alarmCountStep, if_pos ring]
  dsimp only
  rw [last]
  rfl

/-- The end of an alarm by its count: IDLE, no entry, the record complete ALARM_END (R85). -/
theorem alarmCountStep_ended (ring : (s.line l).call = .alarmRing) (last : (s.line l).alarmCount = 1) :
    let t := s.alarmCountStep l
    (t.line l).call = .idle ∧ (t.line l).alarmCount = 0 ∧ t.row l = none
      ∧ ∀ r, (s.line l).record = some r →
          s.ends t l r (s.line l).digits .alarmEnd ∧ s.tells t l (some .alarmEnd) := by
  intro t
  let v := (s.updLine l fun x => { x with alarmCount := 0 }).removeEntry l
  have ended : t = v.endCall l .idle .alarmEnd := alarmCountStep_ends ring last
  have line : v.line l = { s.line l with
      alarmCount := 0, play := if s.row l = none then (s.line l).play else none } := by
    rw [line_removeEntry, line_updLine, if_pos rfl]
    rfl
  have kept : Kept s v := (Kept.updLine l (fun x => { x with alarmCount := 0 }) rfl).trans (Kept.removeEntry l)
  rw [ended]
  refine ⟨by rw [line_endCall], by rw [line_endCall, line], by rw [row_endCall, row_removeEntry], fun r opened => ?_⟩
  have closed := endCall_ends (s := v) (l := l) (new := .idle) .alarmEnd (r := r) (by rw [line]; exact opened)
  have told := endCall_tells (s := v) (l := l) (new := .idle) .alarmEnd (by rw [line, ring]; nofun)
  rw [line] at closed told
  rw [opened] at told
  have link : v.link = s.link := removeEntry_link _ _
  exact ⟨ends_of_before closed kept.stamp kept.mask (by rw [pendingLine, link]; rfl),
    tells_of_before told kept.stamp kept.mask (by rw [line])⟩

/-! ### A pending commit -/

theorem activation_rests (h : (s.line l).commitPending = false
      ∨ ((s.line l).call ≠ .idle ∧ (s.line l).call ≠ .disabled ∧ (s.line l).call ≠ .lockout)) : s.activation l = s := by
  refine if_neg fun both => ?_
  obtain ⟨pending, free⟩ := Bool.and_eq_true_iff.mp both
  rcases h with none' | ⟨idle, disabled, lockout⟩
  · exact absurd pending (by simp [none'])
  · unfold CallState.activates at free
    split at free
    · next call => exact idle call
    · next call => exact disabled call
    · next call => exact lockout call
    all_goals contradiction

theorem activation_activates (pending : (s.line l).commitPending = true)
    (free : (s.line l).call = .idle ∨ (s.line l).call = .disabled ∨ (s.line l).call = .lockout) :
    s.activation l = s.activate l := by
  have activates : (s.line l).call.activates = true := by
    rcases free with call | call | call <;> rw [call] <;> rfl
  exact if_pos (by rw [pending, activates]; rfl)

/-- A marking changes the link alone. -/
theorem markLine_eq (k : ReportKind) (l : LineNo) (d : List Byte) (s : State) :
    s.markLine k l d = { s with link := (s.markLine k l d).link } := by
  unfold markLine mark
  split <;> rfl

/-! ### The count of a calibration's wait -/

theorem calWaitCount_rests (h : ∀ r, (s.line l).run = some r → r.phase ≠ .wait) : s.calWaitCount l = s := by
  unfold calWaitCount
  split
  · rfl
  · next r run =>
    split
    · rfl
    · rfl
    · next wait => exact absurd wait (h r run)

section

variable {r : Run} (run : (s.line l).run = some r) (wait : r.phase = .wait)

include run wait

theorem calWaitCount_counts (few : r.waitCount < 9) : s.calWaitCount l =
    s.updLine l fun x => { x with run := some { r with waitCount := r.waitCount + 1 } } := by
  have fewer : ¬10 ≤ r.waitCount + 1 := by omega
  simp only [calWaitCount, run, wait, if_neg fewer]

/-- The tenth frame of a wait fails the run (R166). -/
theorem calWaitCount_fails (last : r.waitCount = 9) : s.calWaitCount l =
    (s.updLine l fun x => { x with run := some { r with waitCount := 10 } }).failToIdle l .supply := by
  simp only [calWaitCount, run, wait, last]
  rfl

end

end State

end Sys2Proof.Machine

open Sys2Proof Sys2Proof.Machine

/-- Settles O44: what each work does, and then the commands that take one that is held. -/
theorem heldWorksTakenByTheirCommands : Obligations.HeldWorksTakenByTheirCommands := by
  intro l s x
  refine ⟨State.alarmCountStep_counts, State.alarmCountStep_rests, fun r => State.calWaitCount_counts,
    State.calWaitCount_rests, State.pendingAlarmStep_rests, State.activation_rests, fun n due idle pending => ?_,
    fun due ring last => ?_, fun due pending free => ?_, fun r due run wait last => ?_⟩
  · let u : State := { s with due := s.due.erase (.pendingAlarm l) }
    have found : (x.call == .idle && x.alarmPending.isSome) = true := by simp [idle, pending]
    refine ⟨u.pendingAlarmStep l, ?_, State.OnlyLine.of_due (Kept.pendingAlarmStep l) (Local.pendingAlarmStep l), rfl,
      State.doWork_due (.pendingAlarm l) u, ?_⟩
    · have taken := State.occurring_due due found
      rwa [← Bool.and_assoc] at taken
    · obtain ⟨taken, told, dropped, started⟩ := State.pendingAlarmStep_taken (s := u) idle pending
      refine ⟨taken, told, fun none' => dropped (State.alarmVoice_none none'), fun p pattern loaded => ?_⟩
      obtain ⟨line, entry⟩ := started _ (State.alarmVoice_some pattern loaded)
      rw [line, State.line_alarmOpened]
      exact ⟨rfl, rfl, Line.trackAfter_leaving idle (by decide), rfl, entry⟩
  · let u : State := { s with due := s.due.erase (.alarmCount l) }
    let v := u.updLine l fun y => { y with alarmCount := 0 }
    have found : (x.call == .alarmRing && decide (x.alarmCount ≤ 1)) = true := by simp [ring, last]
    have step : u.alarmCountStep l = v.endAlarm l := State.alarmCountStep_ends ring last
    refine ⟨u.alarmCountStep l, ?_, State.OnlyLine.of_due (Kept.alarmCountStep l) (Local.alarmCountStep l), rfl,
      State.doWork_due (.alarmCount l) u, ?_⟩
    · have taken := State.occurring_due due found
      rwa [← Bool.and_assoc] at taken
    · exact State.alarmCountStep_ended (s := u) ring last
  · let u : State := { s with due := s.due.erase (.activation l) }
    have found : (x.commitPending && x.call.activates) = true := by
      rw [pending]
      rcases free with call | call | call <;> rw [call] <;> rfl
    have step : u.activation l = u.activate l := State.activation_activates pending free
    have marked : Kept (u.updLine l fun y => { y with active := y.staged, commitPending := false }) (u.activate l) :=
      Kept.markLine .plan l _
    refine ⟨u.activation l, ?_, ?_, rfl, ?_, ?_⟩
    · have taken := State.occurring_due due found
      rwa [← Bool.and_assoc] at taken
    · rw [step]
      exact State.markLine_eq .plan l _ _
    · rw [step]
      exact marked.link
    · rw [step]
      exact State.markLine_marked .plan l _ (u.updLine l _)
  · let u : State := { s with due := s.due.erase (.calWait l) }
    let v := u.updLine l fun y => { y with run := some { r with waitCount := 10 } }
    have vline : v.line l = { x with run := some { r with waitCount := 10 } } := by
      rw [State.line_updLine, if_pos rfl]
      rfl
    have vrun : (v.line l).run = some { r with waitCount := 10 } := by rw [vline]
    have found : x.waitEnds = true := by simp [Line.waitEnds, run, wait, last]
    have step : u.calWaitCount l = v.failToIdle l .supply := State.calWaitCount_fails run wait last
    refine ⟨u.calWaitCount l, State.occurring_due due found,
      State.OnlyLine.of_due (Kept.calWaitCount l) (Local.calWaitCount l), rfl, State.doWork_due (.calWait l) u, ?_, ?_⟩
    · rw [step, State.line_failToIdle _ vrun]
    · rw [step]
      exact State.runFailed_of_before (State.failToIdle_runFailed .supply vrun) rfl rfl (by rw [vline]) (by rw [vline])
        (by rw [vline]) rfl
end

section
/-! The burst-end notice of a calibration run (R165, R167, R170 to R172): the state it finds the run in, the results of a
run, and what each ending leaves. -/

namespace Sys2Proof.Machine

namespace Run

variable {r : Run} {unit answer : Nat} {old : Tab 4 Nat} {a : Nat}

/-! ### The results of a run -/

theorem mem_measuredChannels {c : Channel} : c ∈ r.measuredChannels ↔ r.measured c = true := by
  simp [measuredChannels]

theorem measured_iff {c : Channel} : r.measured c = true ↔ r.meas.get c ≠ none := by
  simp [measured, Option.isSome_iff_ne_none]

theorem get_newLoads (c : Channel) : (r.newLoads unit old).get c =
    match r.meas.get c with
    | none => old.get c
    | some (m, _) => (m + unit - 1) / unit := by
  rw [newLoads, Tab.get_build]
  rfl

/-- A measured channel's new load is above 40 (R170). -/
def heavy (r : Run) (unit : Nat) (old : Tab 4 Nat) (c : Channel) : Prop :=
  r.meas.get c ≠ none ∧ 40 < (r.newLoads unit old).get c

theorem results_overload {c : Channel} (h : r.heavy unit old c) : r.results unit answer old = .error .overload := by
  have found : (r.measuredChannels.any fun c => 40 < (r.newLoads unit old).get c) = true :=
    List.any_eq_true.mpr ⟨c, mem_measuredChannels.mpr (measured_iff.mpr h.1), decide_eq_true h.2⟩
  simp only [results, found, if_true]

/-- The report of an OVERLOAD names the lowest overloaded channel (R170; log 14). -/
theorem failing_overload {c : Channel} (h : r.heavy unit old c) (lowest : ∀ d, r.heavy unit old d → c ≤ d) :
    r.failing unit old .overload = { r with channel := c } := by
  have found : r.overloadedChannel unit old = some c := by
    rw [overloadedChannel, measuredChannels, List.find?_filter]
    refine find_channel (by simp [measured_iff.mpr h.1, h.2]) fun d heavyD => ?_
    obtain ⟨measured, above⟩ := by simpa using heavyD
    exact lowest d ⟨measured_iff.mp measured, above⟩
  simp only [failing, if_true, found, Option.getD_some]

theorem failing_other {e : CalCause} (h : e ≠ .overload) : r.failing unit old e = r := if_neg h

section

variable (light : ∀ c, ¬r.heavy unit old c)

include light

theorem not_any_heavy : (r.measuredChannels.any fun c => 40 < (r.newLoads unit old).get c) = false := by
  rw [List.any_eq_false]
  intro c measured above
  exact light c ⟨measured_iff.mp (mem_measuredChannels.mp measured), of_decide_eq_true above⟩

theorem results_noRinger (silent : ∀ c, r.meas.get c ≠ none → (r.newLoads unit old).get c = 0) :
    r.results unit answer old = .error .noRinger := by
  have all : (r.measuredChannels.all fun c => (r.newLoads unit old).get c == 0) = true :=
    List.all_eq_true.mpr fun c measured => by simp [silent c (measured_iff.mp (mem_measuredChannels.mp measured))]
  simp only [results, not_any_heavy light, all, if_true]
  rfl

/-- With no overload and some ringer the threshold is judged (R170, R171). -/
theorem results_threshold (ringer : ¬∀ c, r.meas.get c ≠ none → (r.newLoads unit old).get c = 0) :
    r.results unit answer old = match r.threshold answer with
      | .error e => .error e
      | .ok t => if r.outOfBounds t then .error .bounds else .ok (r.newLoads unit old, t) := by
  have notAll : (r.measuredChannels.all fun c => (r.newLoads unit old).get c == 0) = false := by
    rw [List.all_eq_false]
    simp only [not_forall] at ringer
    obtain ⟨c, measured, loaded⟩ := ringer
    exact ⟨c, mem_measuredChannels.mpr (measured_iff.mpr measured), by simpa using loaded⟩
  simp only [results, not_any_heavy light, notAll]
  rfl

end

/-- The largest rise is that of a measured channel that no other exceeds (R171). -/
theorem largestRise_eq {rise : Nat} (leak : r.leakAvg = some a)
    (reached : ∃ c m d, r.meas.get c = some (m, d) ∧ rise = d - a)
    (bounding : ∀ c m d, r.meas.get c = some (m, d) → d - a ≤ rise) : r.largestRise = rise := by
  have le : ∀ c, r.rise c ≤ rise := fun c => by
    unfold Run.rise
    split
    · exact Nat.zero_le _
    · next m d got => simpa [leak] using bounding c m d got
  have upper : ∀ c, r.rise c ≤ r.largestRise := fun c => by
    unfold largestRise
    fin_cases c <;> simp
  obtain ⟨c, m, d, got, rfl⟩ := reached
  have attained : r.rise c = d - a := by simp [Run.rise, got, leak]
  refine Nat.le_antisymm ?_ (attained ▸ upper c)
  exact max_le (max_le (le 0) (le 1)) (max_le (le 2) (le 3))

theorem threshold_margin {rise : Nat} (largest : r.largestRise = rise) (midpoint : r.method = .midpoint)
    (close : answer < rise + 20) : r.threshold answer = .error .margin := by
  simp only [threshold, midpoint, largest, if_pos close]

theorem threshold_ok {rise th : Nat} (largest : r.largestRise = rise)
    (h : (r.method = .midpoint ∧ rise + 20 ≤ answer ∧ th = (rise + answer) / 2) ∨ (r.method = .hold ∧ r.hold = some th)) :
    r.threshold answer = .ok th := by
  rcases h with ⟨midpoint, clear, rfl⟩ | ⟨hold, held⟩
  · simp only [threshold, midpoint, largest, if_neg (Nat.not_lt.mpr clear)]
  · simp only [threshold, hold, held, Option.getD_some]

theorem outOfBounds_iff {th : Nat} :
    r.outOfBounds th = true ↔ ∃ lo hi, r.bounds = some (lo, hi) ∧ (th < lo ∨ hi < th) := by
  unfold outOfBounds
  split
  · next none' => simp [none']
  · next lo hi some' =>
    rw [some']
    simp

/-! ### The next channel -/

theorem nextChannel_some {f : Channel}
    (due : r.mask.getLsbD f.val = true ∧ r.channel < f ∧ r.meas.get f = none)
    (lowest : ∀ c, r.mask.getLsbD c.val = true ∧ r.channel < c ∧ r.meas.get c = none → f ≤ c) :
    r.nextChannel = some f := by
  refine find_channel ?_ fun c found => lowest c ?_
  · simp [inMask, measured, due]
  · simpa [inMask, measured, and_assoc] using found

theorem nextChannel_none (all : ∀ c, r.mask.getLsbD c.val = true → r.channel < c → r.meas.get c ≠ none) :
    r.nextChannel = none := by
  refine find_channel_none.mpr fun c => Bool.eq_false_iff.mpr fun found => ?_
  obtain ⟨⟨masked, above⟩, unmeasured⟩ := by simpa [inMask, measured] using found
  exact all c masked above unmeasured

end Run

end Sys2Proof.Machine
end

section
/-! What the burst-end notice leaves of its line, ending by ending (R165, R167, R170 to R172). -/

namespace Sys2Proof.Machine

namespace State

variable {s v t : State} {l : LineNo} {r q : Run} {f : Channel}

/-- The notice has led from `s` to `v`: the entry is gone, and of the line the run and the play record have changed. -/
structure NoticePoint (s v : State) (l : LineNo) : Prop where
  line : v.line l = { s.line l with play := (v.line l).play, run := (v.line l).run }
  row : v.row l = none
  link : v.link = s.link
  kept : Kept s v

namespace NoticePoint

theorem removed (l : LineNo) (s : State) : NoticePoint s (s.removeEntry l) l :=
  ⟨by simp, by simp, by simp, Kept.removeEntry l⟩

theorem withRun (h : NoticePoint s v l) (r : Run) : NoticePoint s (v.updLine l fun x => { x with run := some r }) l := by
  refine ⟨?_, h.row, h.link, h.kept.trans (Kept.updLine l _ rfl)⟩
  rw [line_updLine, if_pos rfl, h.line]

theorem call (h : NoticePoint s v l) : (v.line l).call = (s.line l).call := by rw [h.line]

theorem loads (h : NoticePoint s v l) : (v.line l).loads = (s.line l).loads := by rw [h.line]

theorem caps (h : NoticePoint s v l) : v.arb.caps = s.arb.caps := congrArg (·.1) h.kept.arb

theorem unitCurrent (h : NoticePoint s v l) : v.arb.unitCurrent = s.arb.unitCurrent :=
  congrArg (·.2.2.2.2.2.2.1) h.kept.arb

theorem assumedLoad (h : NoticePoint s v l) : v.arb.assumedLoad = s.arb.assumedLoad :=
  congrArg (·.2.2.2.2.2.2.2.1) h.kept.arb

/-- A run that fails there: IDLE, told, no entry, and its report (R172). -/
theorem fails (h : NoticePoint s v l) (calibrating : (s.line l).call = .calibrating) (c : CalCause)
    (run : (v.line l).run = some q) (same : ∀ x stamp, calibrationData l x q stamp = calibrationData l x r stamp) :
    ((v.failToIdle l c).line l).call = .idle ∧ s.tells (v.failToIdle l c) l none
      ∧ s.runFailed (v.failToIdle l c) l r c := by
  refine ⟨by rw [line_failToIdle c run], ?_, ?_⟩
  · exact tells_of_before (failToIdle_tells c run (by rw [h.call, calibrating]; nofun)) h.kept.stamp h.kept.mask h.call
  · exact runFailed_of_before (failToIdle_runFailed c run) h.kept.stamp h.kept.mask (by rw [h.line]) (by rw [h.line])
      (by rw [h.line]) (same _ _)

end NoticePoint

/-! ### An empty notice, and the next channel -/

/-- The state in which the notice's measurement is written (R167). -/
def burstMeasured (l : LineNo) (r : Run) (s : State) : State :=
  (s.removeEntry l).updLine l fun x => { x with run := some r }

theorem burstMeasured_point (r : Run) : NoticePoint s (s.burstMeasured l r) l := (NoticePoint.removed l s).withRun r

theorem burstMeasured_run (r : Run) : ((s.burstMeasured l r).line l).run = some r := by simp [burstMeasured]

section

variable {n ac dc : Nat} (run : (s.line l).run = some r)

include run

theorem burstEnd_empty (h : n = 0) : s.burstEnd l n ac dc = (s.removeEntry l).failToIdle l .supply := by
  simp only [burstEnd, run, if_pos h]

theorem burstEnd_measured (h : 1 ≤ n) : s.burstEnd l n ac dc =
    match Run.nextChannel { r with meas := r.meas.set r.channel (some (ac, dc)) } with
    | some f => (s.burstMeasured l { r with meas := r.meas.set r.channel (some (ac, dc)) }).beginWait l f
    | none => (s.burstMeasured l { r with meas := r.meas.set r.channel (some (ac, dc)) }).computeRun l
        { r with meas := r.meas.set r.channel (some (ac, dc)) } := by
  simp only [burstEnd, run, if_neg (Nat.one_le_iff_ne_zero.mp h)]
  rfl

end

/-- Every window capacity of the channel is below the load (R165). -/
theorem tooSmall_iff {a : Arbiter} {load : Nat} : a.tooSmall f load = true ↔ ∀ w, (a.caps.get f).get w < load := by
  simp only [Arbiter.tooSmall, Bool.and_eq_true, decide_eq_true_eq]
  refine ⟨fun ⟨⟨⟨h0, h1⟩, h2⟩, h3⟩ w => ?_, fun h => ⟨⟨⟨h 0, h 1⟩, h 2⟩, h 3⟩⟩
  fin_cases w
  · exact h0
  · exact h1
  · exact h2
  · exact h3

section

variable (run : (s.line l).run = some r)

include run

theorem beginWait_small (h : ∀ w, (s.arb.caps.get f).get w < s.requestLoad l f) : s.beginWait l f =
    (s.updLine l fun x => { x with run := some (r.waiting f (s.requestLoad l f)) }).failToIdle l .supply := by
  simp only [beginWait, run, tooSmall_iff.mpr h, if_true]

theorem beginWait_fits (h : ¬∀ w, (s.arb.caps.get f).get w < s.requestLoad l f) : s.beginWait l f =
    (s.updLine l fun x => { x with run := some (r.waiting f (s.requestLoad l f)) }).request l
      (Entry.calibration f (s.requestLoad l f)) := by
  simp only [beginWait, run, tooSmall_iff.not.mpr h]
  rfl

end

/-- A request waits, or is placed at once and takes the run of a TEST entry to RING (R125, R129, R130, R166). -/
theorem request_test {e : Entry} (test : e.reqType = .test) :
    ((s.request l e).row l = some e ∧ (s.request l e).line l = s.line l)
      ∨ ∃ φ, (s.request l e).row l = some (e.placedAt φ) ∧ (s.request l e).line l =
          { s.line l with run := (s.line l).run.map fun r => { r with phase := .ring } } := by
  let u := (s.setRow l (some e)).standbyEvent .request
  have row : u.row l = some e := by simp [u]
  have line : u.line l = s.line l := by simp [u]
  have waits : (u.joinWaiting l).row l = some e ∧ (u.joinWaiting l).line l = s.line l := by
    unfold joinWaiting
    split <;> exact ⟨row, line⟩
  change ((u.tryAdmission l e).row l = some e ∧ (u.tryAdmission l e).line l = s.line l) ∨ ∃ φ,
    (u.tryAdmission l e).row l = some (e.placedAt φ) ∧ (u.tryAdmission l e).line l = _
  unfold tryAdmission
  split
  · split
    · next φ _ => exact .inr ⟨φ, by rw [row_placeEntry, if_pos rfl], by rw [line_placeEntry, if_pos ⟨rfl, test⟩, line]⟩
    · exact .inl waits
  · exact .inl waits

/-- The line waits for the ringing of a channel that fits some window (R165, R166). -/
theorem beginWait_requested (calibrating : (s.line l).call = .calibrating) (run : (s.line l).run = some r)
    (fits : ¬∀ w, (s.arb.caps.get f).get w < s.requestLoad l f) :
    (s.beginWait l f).testRequested l r f (s.requestLoad l f) := by
  let u := s.updLine l fun x => { x with run := some (r.waiting f (s.requestLoad l f)) }
  have line : u.line l = { s.line l with run := some (r.waiting f (s.requestLoad l f)) } := by
    rw [line_updLine, if_pos rfl]
  rw [beginWait_fits run fits]
  rcases request_test (s := u) (l := l) (e := Entry.calibration f (s.requestLoad l f)) rfl with
    ⟨waits, same⟩ | ⟨φ, placed, ring⟩
  · refine ⟨by rw [same, line, calibrating], _, waits, rfl, rfl, rfl, rfl, ?_⟩
    rw [same, line]
    rfl
  · refine ⟨by rw [ring, line, calibrating], _, placed, rfl, rfl, rfl, rfl, ?_⟩
    rw [ring, line]
    rfl

/-! ### The results -/

/-- Results that fail, worked out where the notice has led: the run as its report shows it, failed (R170, R171). -/
theorem computeRun_fails {e : CalCause} (point : NoticePoint s v l)
    (results : r.results s.arb.unitCurrent s.settings.answerCurrent (s.line l).loads = .error e) :
    v.computeRun l r = (v.updLine l fun x =>
      { x with run := some (r.failing s.arb.unitCurrent (s.line l).loads e) }).failToIdle l e := by
  rw [← point.unitCurrent, ← point.kept.settings, ← point.loads] at results
  simp only [computeRun, results]
  rw [← point.unitCurrent, ← point.loads]
  rfl

theorem computeRun_done {loads : Tab 4 Nat} {th : Nat} (point : NoticePoint s v l)
    (results : r.results s.arb.unitCurrent s.settings.answerCurrent (s.line l).loads = .ok (loads, th)) :
    v.computeRun l r = v.completeRun l r loads th := by
  rw [← point.unitCurrent, ← point.kept.settings, ← point.loads] at results
  simp only [computeRun, results]

section

variable {a th : Nat} (loads : Tab 4 Nat) (leak : r.leakAvg = some a)

/-- The line of a run that is done, its CALIBRATION report apart (R172). -/
def runWritten (l : LineNo) (a : Nat) (loads : Tab 4 Nat) (th : Nat) (s : State) : State :=
  (s.updLine l fun x =>
    { x with loads := loads, tripThreshold := th, calStatus := .done, calCause := none, run := none }).writeBaseline l a

theorem line_runWritten : (s.runWritten l a loads th).line l = { s.line l with
    loads := loads, tripThreshold := th, calStatus := .done, calCause := none, run := none, baseline := a
    leaky := leakyAfter (s.line l).leakLimit a (s.line l).leaky } := by
  rw [runWritten, line_writeBaseline, line_updLine, if_pos rfl]

theorem runWritten_kept : Kept s (s.runWritten l a loads th) :=
  Kept.trans (t := s.updLine l _) (Kept.updLine l _ rfl) (Kept.writeBaseline l a)

include leak

theorem completeRun_eq : s.completeRun l r loads th =
    ((s.runWritten l a loads th).markCalibration l r).enter l .idle := by
  simp only [completeRun, leak, Option.getD_some]
  rfl

theorem line_completeRun : (s.completeRun l r loads th).line l = { s.line l with
    loads := loads, tripThreshold := th, calStatus := .done, calCause := none, run := none, baseline := a
    leaky := leakyAfter (s.line l).leakLimit a (s.line l).leaky, call := .idle, timer := none, dialBegun := false } := by
  rw [completeRun_eq loads leak, line_enter, markCalibration_data, line_markLine, line_runWritten, Line.trackAfter_idle]
  rfl

theorem row_completeRun : (s.completeRun l r loads th).row l = s.row l := by
  rw [completeRun_eq loads leak, row_enter, markCalibration_data, row_markLine, runWritten, row_writeBaseline, row_updLine]

theorem completeRun_tells (away : (s.line l).call ≠ .idle) : s.tells (s.completeRun l r loads th) l none := by
  have written : Kept s (s.runWritten l a loads th) := runWritten_kept loads
  have kept := written.trans (Kept.markCalibration l r)
  have call : (((s.runWritten l a loads th).markCalibration l r).line l).call = (s.line l).call := by
    rw [markCalibration_data, line_markLine, line_runWritten]
  rw [completeRun_eq loads leak]
  exact tells_of_before (enter_tells (by rwa [call])) kept.stamp kept.mask call

/-- The CALIBRATION report of a run that is done shows the values that it wrote (R172). -/
theorem completeRun_reported : s.runReported (s.completeRun l r loads th) l r := by
  have kept : Kept s (s.runWritten l a loads th) := runWritten_kept loads
  have same : calibrationData l ((s.completeRun l r loads th).line l) r s.stamp
      = calibrationData l ((s.runWritten l a loads th).line l) r s.stamp := by
    rw [line_completeRun loads leak, line_runWritten]
    rfl
  unfold runReported
  rw [same, completeRun_eq loads leak, markCalibration_data, kept.stamp, ← kept.mask]
  exact (SameReport.enter .idle (by decide)).marked (markLine_marked .calibration l _ _)

/-- After the baseline is written the run's completion leaves the LINE_FAULT report alone (R58, R172). -/
theorem completeRun_lineFault :
    SameReport .lineFault l (s.runWritten l a loads th) (s.completeRun l r loads th) := by
  rw [completeRun_eq loads leak, markCalibration_data]
  exact (SameReport.markLine _ (by decide)).trans (.enter .idle (by decide))

end

end State

end Sys2Proof.Machine
end

section
/-! The three outcomes of a burst-end notice put together (R165, R167, R170 to R172). -/

namespace Sys2Proof.Machine

namespace State

variable {s : State} {l : LineNo} {r : Run} {f : Channel}

section

variable {v : State} (point : NoticePoint s v l) (calibrating : (s.line l).call = .calibrating)

include point calibrating

/-- A run whose results fail (R170, R171): IDLE, told, and its report. -/
theorem computeRun_failed {e : CalCause} {q : Run}
    (results : r.results s.arb.unitCurrent s.settings.answerCurrent (s.line l).loads = .error e)
    (failing : r.failing s.arb.unitCurrent (s.line l).loads e = q) :
    ((v.computeRun l r).line l).call = .idle ∧ s.tells (v.computeRun l r) l none
      ∧ s.runFailed (v.computeRun l r) l q e := by
  rw [computeRun_fails point results, failing]
  exact (point.withRun q).fails calibrating e (by simp) fun _ _ => rfl

/-- Each result of a run at its last notice leaves the line IDLE with no run and no entry, the change told (R172). -/
theorem computeRun_ended {a : Nat} (leak : r.leakAvg = some a) : let t := v.computeRun l r
    t.row l = none ∧ (t.line l).run = none ∧ (t.line l).call = .idle ∧ s.tells t l none := by
  intro t
  cases results : r.results s.arb.unitCurrent s.settings.answerCurrent (s.line l).loads with
  | error e =>
    obtain ⟨idle, told, failed⟩ := computeRun_failed point calibrating results rfl
    exact ⟨failed.closed.2, failed.closed.1, idle, told⟩
  | ok done =>
    obtain ⟨loads, th⟩ := done
    have done : t = v.completeRun l r loads th := computeRun_done point results
    rw [done, row_completeRun loads leak, line_completeRun loads leak]
    exact ⟨point.row, rfl, rfl, tells_of_before (completeRun_tells loads leak (by rw [point.call, calibrating]; nofun))
      point.kept.stamp point.kept.mask point.call⟩

omit calibrating in
/-- A run that is done: its values written together, reported, and LEAKY judged against the new baseline (R58, R172). -/
theorem computeRun_written {a th : Nat} {loads : Tab 4 Nat} (leak : r.leakAvg = some a)
    (results : r.results s.arb.unitCurrent s.settings.answerCurrent (s.line l).loads = .ok (loads, th)) :
    let t := v.computeRun l r
    let leaky := leakyAfter (s.line l).leakLimit a (s.line l).leaky
    (∃ play, t.line l = { s.line l with
      play := play, loads := loads, tripThreshold := th, calStatus := .done, calCause := none, run := none, baseline := a
      leaky := leaky, call := .idle, timer := none, dialBegun := false })
      ∧ s.runReported t l r
      ∧ (leaky ≠ (s.line l).leaky → t.marked s.link.mask .lineFault l
          [lineByte l, if leaky then 2 else 3, flagByte (s.line l).fitted, flagByte leaky])
      ∧ (leaky = (s.line l).leaky → SameReport .lineFault l s t) := by
  intro t leaky
  let w := v.updLine l fun x =>
    { x with loads := loads, tripThreshold := th, calStatus := .done, calCause := none, run := none }
  have wline : w.line l = { s.line l with
      play := (v.line l).play, loads := loads, tripThreshold := th, calStatus := .done, calCause := none, run := none } := by
    rw [line_updLine, if_pos rfl, point.line]
  have done : t = v.completeRun l r loads th := computeRun_done point results
  have stays : SameReport .lineFault l (w.writeBaseline l a) t := done ▸ completeRun_lineFault loads leak
  refine ⟨⟨(v.line l).play, ?_⟩, ?_, fun change => ?_, fun same => ?_⟩
  · rw [done, line_completeRun loads leak, point.line]
  · have reported := completeRun_reported (s := v) (l := l) (th := th) loads leak
    rw [← done] at reported
    unfold runReported at reported ⊢
    rwa [point.kept.stamp, point.kept.mask] at reported
  · have marked := writeBaseline_marked (s := w) (l := l) (b := a) (by rw [wline]; exact change)
    rw [line_writeBaseline, wline] at marked
    have mask : w.link.mask = s.link.mask := point.kept.mask
    rw [mask] at marked
    exact stays.marked marked
  · have link : (w.writeBaseline l a).link = s.link := by
      rw [writeBaseline_link (by rw [wline]; exact same)]
      exact point.link
    have before : SameReport .lineFault l s (w.writeBaseline l a) := .of_link link
    exact before.trans stays

end

end State

end Sys2Proof.Machine

open Sys2Proof Sys2Proof.Machine

/-- Settles O53: an empty notice, one with a channel still to measure, and the last. -/
theorem calibrationResultsWrittenTogether : Obligations.CalibrationResultsWrittenTogether := by
  intro l run n ac dc s running calibrating t measured ended due
  let v := s.burstMeasured l measured
  have point : State.NoticePoint s v l := State.burstMeasured_point measured
  have measuring : (v.line l).run = some measured := State.burstMeasured_run measured
  have apart : ∀ c : Channel, run.channel < c → measured.meas.get c = run.meas.get c := fun c above =>
    Tab.get_set_ne _ _ (ne_of_gt above)
  refine ⟨fun empty => ?_, fun some' f dueF lowest => ?_,
    fun a leak some' unit masked others unmasked unmeasured => ?_⟩
  · have burst : t = (s.removeEntry l).failToIdle l .supply := State.burstEnd_empty running empty
    obtain ⟨idle, told, failed⟩ := (State.NoticePoint.removed l s).fails (q := run) (r := run) calibrating .supply
      (by simpa using running) fun _ _ => rfl
    rw [← burst] at idle told failed
    exact ⟨⟨idle, told⟩, failed⟩
  · intro load small
    have next : measured.nextChannel = some f :=
      Run.nextChannel_some ⟨dueF.1, dueF.2.1, (apart f dueF.2.1).trans dueF.2.2⟩ fun c ⟨mask, above, none'⟩ =>
        lowest c ⟨mask, above, (apart c above).symm.trans none'⟩
    have burst : t = v.beginWait l f := by
      have burst := State.burstEnd_measured (ac := ac) (dc := dc) running some'
      rw [next] at burst
      exact burst
    have sameLoad : v.requestLoad l f = load := by
      simp only [State.requestLoad, point.loads, point.assumedLoad, load]
    have sameSmall : (∀ w, (v.arb.caps.get f).get w < v.requestLoad l f) ↔ small := by rw [sameLoad, point.caps]
    refine ⟨fun all => ?_, fun fits => ?_⟩
    · obtain ⟨idle, told, failed⟩ := (point.withRun (measured.waiting f load)).fails (q := measured.waiting f load)
        (r := { measured with phase := .wait, channel := f }) calibrating .supply (by simp) fun _ _ => rfl
      rw [← sameLoad, ← State.beginWait_small measuring (sameSmall.mpr all), ← burst] at idle told failed
      exact ⟨⟨idle, told⟩, failed⟩
    · rw [burst, ← sameLoad]
      exact State.beginWait_requested (point.call.trans calibrating) measuring (sameSmall.not.mpr fits)
  · intro got load heavy silent
    have last : measured.nextChannel = none := Run.nextChannel_none fun c mask above => by
      rw [apart c above]
      exact others c mask (ne_of_gt above)
    have burst : t = v.computeRun l measured := by
      have burst := State.burstEnd_measured (ac := ac) (dc := dc) running some'
      rw [last] at burst
      exact burst
    have loadIs : ∀ c, (measured.newLoads s.arb.unitCurrent (s.line l).loads).get c = load c := fun c =>
      Run.get_newLoads c
    have heavyIs : ∀ c, measured.heavy s.arb.unitCurrent (s.line l).loads c ↔ heavy c := fun c => by
      rw [Run.heavy, loadIs]
    obtain ⟨row, closed, idle, told⟩ := State.computeRun_ended point calibrating (r := measured) leak
    rw [← burst] at row closed idle told
    have fails : ∀ {e : CalCause} {q : Run},
        measured.results s.arb.unitCurrent s.settings.answerCurrent (s.line l).loads = .error e →
        measured.failing s.arb.unitCurrent (s.line l).loads e = q → s.runFailed t l q e := fun results failing => by
      rw [burst]
      exact (State.computeRun_failed point calibrating results failing).2.2
    refine ⟨row, closed, ⟨idle, told⟩, fun c heavyC lowest => ?_, fun light isSilent => ?_,
      fun light notSilent rise reached bounding => ?_⟩
    · exact fails (Run.results_overload ((heavyIs c).mpr heavyC))
        (Run.failing_overload ((heavyIs c).mpr heavyC) fun d heavyD => lowest d ((heavyIs d).mp heavyD))
    · refine fails (Run.results_noRinger (fun c => (heavyIs c).not.mpr (light c)) fun c got' => ?_)
        (Run.failing_other (by decide))
      rw [loadIs]
      exact isSilent c got'
    have judged := Run.results_threshold (r := measured) (answer := s.settings.answerCurrent)
      (fun c => (heavyIs c).not.mpr (light c)) (fun none' => notSilent fun c got' => (loadIs c).symm.trans (none' c got'))
    have largest : measured.largestRise = rise := Run.largestRise_eq leak reached bounding
    refine ⟨fun midpoint close => ?_, fun th method => ?_⟩
    · rw [Run.threshold_margin largest midpoint close] at judged
      exact fails judged (Run.failing_other (by decide))
    rw [Run.threshold_ok largest method] at judged
    refine ⟨fun out => ?_, fun inside => ?_⟩
    · have out' : measured.outOfBounds th = true := Run.outOfBounds_iff.mpr out
      simp only [out', if_true] at judged
      exact fails judged (Run.failing_other (by decide))
    · have in' : measured.outOfBounds th = false := by
        rw [← Bool.not_eq_true, Run.outOfBounds_iff]
        rintro ⟨lo, hi, bounds, out⟩
        have := inside lo hi bounds
        omega
      simp only [in', Bool.false_eq_true, if_false] at judged
      obtain ⟨⟨play, line⟩, reported, changed, same⟩ := State.computeRun_written (r := measured) point leak judged
      rw [← burst] at line reported changed same
      rw [line]
      exact ⟨rfl, rfl, rfl, rfl, loadIs, reported, rfl, changed, fun keeps => ⟨(same keeps).slot, (same keeps).pending⟩⟩
end

section
/-! The commands that replace settings: TIMERS_SET (R68), SUPPLY_SET (R121), SUPPLY_TIMING (R142) and ARBITER_SET
(R123). -/

namespace Sys2Proof.Machine

/-! ### TIMERS_SET -/

/-- Settings in the ranges that TIMERS_SET takes (R55, R68, R171). -/
structure Settings.inRange (v : Settings) : Prop where
  firstDigit : 1 ≤ v.firstDigit ∧ v.firstDigit ≤ 60
  interdigit : 1 ≤ v.interdigit ∧ v.interdigit ≤ 30
  exchangeWait : 1 ≤ v.exchangeWait ∧ v.exchangeWait ≤ 30
  hangupWait : 5 ≤ v.hangupWait ∧ v.hangupWait ≤ 120
  revertNoAnswer : 10 ≤ v.revertNoAnswer ∧ v.revertNoAnswer ≤ 600
  termNoAnswer : 10 ≤ v.termNoAnswer ∧ v.termNoAnswer ≤ 600
  reorder : 5 ≤ v.reorder ∧ v.reorder ≤ 120
  idThreshold : 10 ≤ v.idThreshold ∧ v.idThreshold ≤ 255
  answerCurrent : 40 ≤ v.answerCurrent ∧ v.answerCurrent ≤ 600

/-- Settings in their ranges are read back from their bytes (R192, R196). -/
theorem settingsAt_bytes {v : Settings} (h : v.inRange) : settingsAt v.bytes = v := by
  obtain ⟨first, inter, wait, hangup, revert, term, reorder, threshold, answer⟩ := h
  have readFirst : wordAt v.bytes 0 = v.firstDigit := twoBytes_toNat (by omega)
  have readInter : wordAt v.bytes 2 = v.interdigit := twoBytes_toNat (by omega)
  have readWait : wordAt v.bytes 4 = v.exchangeWait := twoBytes_toNat (by omega)
  have readHangup : wordAt v.bytes 6 = v.hangupWait := twoBytes_toNat (by omega)
  have readRevert : wordAt v.bytes 8 = v.revertNoAnswer := twoBytes_toNat (by omega)
  have readTerm : wordAt v.bytes 10 = v.termNoAnswer := twoBytes_toNat (by omega)
  have readReorder : wordAt v.bytes 12 = v.reorder := twoBytes_toNat (by omega)
  have readThreshold : byteAt v.bytes 14 = v.idThreshold := toByte_toNat (by omega)
  have readAnswer : wordAt v.bytes 15 = v.answerCurrent := twoBytes_toNat (by omega)
  simp only [settingsAt, readFirst, readInter, readWait, readHangup, readRevert, readTerm, readReorder, readThreshold,
    readAnswer]

/-- The checks of TIMERS_SET judge the settings that its payload carries (R196). -/
theorem timersSet_passes_iff (p : List Byte) :
    (∀ k ∈ fieldChecks .timersSet p, k.1 = true) ↔ (settingsAt p).inRange := by
  simp only [fieldChecks, List.forall_mem_cons, wordIn_passes_iff, byteIn_passes_iff, List.not_mem_nil, false_implies,
    implies_true, and_true]
  exact ⟨fun ⟨a, b, c, d, e, f, g, h, i⟩ => ⟨a, b, c, d, e, f, g, h, i⟩,
    fun ⟨a, b, c, d, e, f, g, h, i⟩ => ⟨a, b, c, d, e, f, g, h, i⟩⟩

theorem carryTimersSet_eq {v : Settings} (h : v.inRange) (s : State) :
    s.carryTimersSet v.bytes = ({ s with settings := v }, [0x00]) := by
  rw [State.carryTimersSet, settingsAt_bytes h]
  rfl

/-! ### SUPPLY_SET -/

theorem supplySet_passes (c : Channel) (q : List Byte) :
    ∀ k ∈ fieldChecks .supplySet (toByte c.val :: q), k.1 = true := by
  simp only [fieldChecks, List.forall_mem_singleton, byteIn_passes_iff, byteAt_cons_zero, channelByte_toNat]
  omega

/-- The four window capacities replace those of the channel named (R121). -/
theorem carrySupplySet_eq (c : Channel) (q : List Byte) (s : State) : s.carrySupplySet (toByte c.val :: q) =
    (s.updArb fun a => { a with caps := a.caps.set c (capacitiesAt (toByte c.val :: q)) }, [0x00]) := by
  have named : channelAt (toByte c.val :: q) 0 = c := by simp [channelAt]
  rw [State.carrySupplySet, named]
  rfl

/-! ### SUPPLY_TIMING and ARBITER_SET -/

theorem byteIn_passes_of_toByte {p : List Byte} {lo hi i n : Nat} (read : byteAt p i = (toByte n).toNat) (small : hi < 256)
    (range : lo ≤ n ∧ n ≤ hi) : (byteIn p lo hi i).1 = true := by
  rw [byteIn_passes_iff, read, toByte_toNat (by omega)]
  exact range

theorem supplyTiming_passes {f w rf rv wf wv : Nat} (frames : 1 ≤ f ∧ f ≤ 255) (warm : w ≤ 15) (form : rf ≤ 2)
    (reload : rv ≤ 7) (form' : wf ≤ 2) (wake : wv ≤ 3) :
    ∀ k ∈ fieldChecks .supplyTiming [toByte f, toByte w, toByte rf, toByte rv, toByte wf, toByte wv], k.1 = true := by
  simp only [fieldChecks, List.forall_mem_cons]
  exact ⟨byteIn_passes_of_toByte rfl (by decide) frames, byteIn_passes_of_toByte rfl (by decide) ⟨Nat.zero_le _, warm⟩,
    byteIn_passes_of_toByte rfl (by decide) ⟨Nat.zero_le _, form⟩, byteIn_passes_of_toByte rfl (by decide) ⟨Nat.zero_le _, reload⟩,
    byteIn_passes_of_toByte rfl (by decide) ⟨Nat.zero_le _, form'⟩, byteIn_passes_of_toByte rfl (by decide) ⟨Nat.zero_le _, wake⟩,
    List.forall_mem_nil _⟩

/-- A flag set written by the form of a code (R142). -/
theorem applyCode_eq {code : Nat} (h : code ≤ 2) (old value : BitVec 3) : (WriteForm.ofCode code).apply old value =
    match (generalizing := false) code with
    | 0 => value
    | 1 => old ||| value
    | _ => old &&& ~~~value := by
  match code, h with
  | 0, _ => rfl
  | 1, _ => rfl
  | 2, _ => rfl

theorem carrySupplyTiming_eq {f w rf rv wf wv : Nat} (hf : f < 256) (hw : w < 256) (hrf : rf < 256) (hrv : rv < 256)
    (hwf : wf < 256) (hwv : wv < 256) (s : State) :
    s.carrySupplyTiming [toByte f, toByte w, toByte rf, toByte rv, toByte wf, toByte wv] =
      ({ s with arb := { s.arb with
          standbyFrames := f
          warmUpFrames := w
          reloadMask := (WriteForm.ofCode rf).apply s.arb.reloadMask (BitVec.ofNat 3 rv)
          wakeMask := (WriteForm.ofCode wf).apply s.arb.wakeMask (BitVec.ofNat 3 wv) } }, [0x00]) := by
  simp only [State.carrySupplyTiming, byteAt, List.getD_cons_zero, List.getD_cons_succ, toByte_toNat hf, toByte_toNat hw,
    toByte_toNat hrf, toByte_toNat hrv, toByte_toNat hwf, toByte_toNat hwv]
  rfl

theorem arbiterSet_passes {b d w u a : Nat} (base : b ≤ 119) (stride : 1 ≤ d) (divides : 120 % d = 0)
    (wait : 1 ≤ w ∧ w ≤ 255) (unit : 10 ≤ u ∧ u ≤ 255) (load : 1 ≤ a ∧ a ≤ 40) :
    ∀ k ∈ fieldChecks .arbiterSet [toByte b, toByte d, toByte w, toByte u, toByte a], k.1 = true := by
  have small : d < 256 := by
    by_contra large
    rw [Nat.mod_eq_of_lt (by omega)] at divides
    contradiction
  have read : byteAt [toByte b, toByte d, toByte w, toByte u, toByte a] 1 = d := toByte_toNat small
  have strides : (d != 0 && 120 % d == 0) = true := by simp [divides, Nat.ne_of_gt stride]
  simp only [fieldChecks, List.forall_mem_cons, read]
  exact ⟨byteIn_passes_of_toByte rfl (by decide) ⟨Nat.zero_le _, base⟩, strides, byteIn_passes_of_toByte rfl (by decide) wait,
    byteIn_passes_of_toByte rfl (by decide) unit, byteIn_passes_of_toByte rfl (by decide) load, List.forall_mem_nil _⟩

theorem carryArbiterSet_eq {b d w u a : Nat} (hb : b < 256) (hd : d < 256) (hw : w < 256) (hu : u < 256) (ha : a < 256)
    (s : State) : s.carryArbiterSet [toByte b, toByte d, toByte w, toByte u, toByte a] =
      ({ s with arb := { s.arb with
          phaseBase := b, stride := d, waitThreshold := w, unitCurrent := u, assumedLoad := a } }, [0x00]) := by
  simp only [State.carryArbiterSet, byteAt, List.getD_cons_zero, List.getD_cons_succ, toByte_toNat hb, toByte_toNat hd,
    toByte_toNat hw, toByte_toNat hu, toByte_toNat ha]
  rfl

end Sys2Proof.Machine

open Sys2Proof Sys2Proof.Machine

/-- Settles O14: each payload passes its checks and is read back, and what it carries replaces the settings. -/
theorem settingsAreReplacedTogether : Obligations.SettingsAreReplacedTogether := by
  intro tag s ready
  refine ⟨fun v h1 h2 h3 h4 h5 h6 h7 h8 h9 h10 h11 h12 h13 h14 h15 h16 h17 h18 => ?_, fun c w0 w1 w2 w3 => ?_,
    fun f w rf rv wf wv hf hf' hw hrf hrv hwf hwv => ?_, fun b d w u a hb hd divides hw hw' hu hu' ha ha' => ?_⟩
  · have range : v.inRange :=
      ⟨⟨h1, h2⟩, ⟨h3, h4⟩, ⟨h5, h6⟩, ⟨h7, h8⟩, ⟨h9, h10⟩, ⟨h11, h12⟩, ⟨h13, h14⟩, ⟨h15, h16⟩, ⟨h17, h18⟩⟩
    exact exec_carried .timersSet tag _ ready rfl ((timersSet_passes_iff _).mpr ((settingsAt_bytes range).symm ▸ range))
      (carryTimersSet_eq range s)
  · refine ⟨_, exec_carried .supplySet tag _ ready rfl (supplySet_passes c _) (carrySupplySet_eq c _ s), ?_⟩
    have set : ((s.arb.caps.set c (capacitiesAt [toByte c.val, w0, w1, w2, w3])).get c) =
        capacitiesAt [toByte c.val, w0, w1, w2, w3] := Tab.get_set_self _ _ _
    have window : ∀ w, (capacitiesAt [toByte c.val, w0, w1, w2, w3]).get w
        = byteAt [toByte c.val, w0, w1, w2, w3] (1 + w.val) := fun w => Tab.get_build _ _
    simp only [State.updArb_arb, set, window]
    exact ⟨rfl, rfl, rfl, rfl, fun d other => Tab.get_set_ne _ _ other, rfl⟩
  · have carried := carrySupplyTiming_eq (f := f) (w := w) (rf := rf) (rv := rv) (wf := wf) (wv := wv) (by omega)
      (by omega) (by omega) (by omega) (by omega) (by omega) s
    rw [applyCode_eq hrf, applyCode_eq hwf] at carried
    exact exec_carried .supplyTiming tag _ ready rfl (supplyTiming_passes ⟨hf, hf'⟩ hw hrf hrv hwf hwv) carried
  · have small : d ≤ 120 := Nat.le_of_dvd (by decide) (Nat.dvd_of_mod_eq_zero divides)
    exact exec_carried .arbiterSet tag _ ready rfl (arbiterSet_passes hb hd divides ⟨hw, hw'⟩ ⟨hu, hu'⟩ ⟨ha, ha'⟩)
      (carryArbiterSet_eq (by omega) (by omega) (by omega) (by omega) (by omega) s)
end

section
/-! The line drive (R65, R66), and the step of the ring engine for a placed line (R148 to R151). -/

namespace Sys2Proof.Machine

/-! ### The line drive -/

theorem Line.drive_testing {x : Line} (h : x.test.running = true) : x.drive = .partyTest := by simp [Line.drive, h]

theorem Line.drive_rung {x : Line} {p : Play} {d : RingDrive} (testing : x.test.running = false)
    (play : x.play = some p) (rung : p.drive = some d) : x.drive = .ring d.side d.channel := by
  obtain ⟨drive, _⟩ := p
  subst rung
  simp [Line.drive, testing, play]

/-- A line under neither a party test nor ringing has the base drive of its call state (R65). -/
theorem Line.drive_quiet {x : Line} (testing : x.test.running = false) (silent : ∀ p, x.play = some p → p.drive = none) :
    x.drive = x.baseDrive := by
  unfold Line.drive
  rw [if_neg (Bool.eq_false_iff.mp testing)]
  split
  · next play => exact nomatch silent _ play
  · rfl

/-- The base drive of each call state (R66). -/
theorem Line.baseDrive_eq (x : Line) :
    ((x.call = .disabled ∨ x.call = .lockout) → x.baseDrive = .park)
    ∧ ((x.call = .idle ∨ x.call = .ident ∨ x.call = .termRing ∨ x.call = .alarmRing ∨ x.call = .revertRing
        ∨ x.call = .revertCheck ∨ x.call = .revertTalk ∨ x.call = .calibrating ∨ x.call = .exchWait) →
        x.baseDrive = .feed .none)
    ∧ (x.call = .dial → x.baseDrive = .feed (if x.dialBegun = true then .none else .dial))
    ∧ (x.call = .revertTone → x.baseDrive = .feed .revert) ∧ (x.call = .reorder → x.baseDrive = .feed .reorder)
    ∧ (x.call = .exchange → x.baseDrive = .exchange) ∧ (x.call = .test → x.baseDrive = .testAccess) := by
  unfold Line.baseDrive
  cases x.call <;> simp

/-! ### What a placed line shows -/

theorem positionAt_of_lt {φ : Nat} (h : φ < 120) (cs : Nat) : positionAt φ cs = (cs + 120 - φ) % 120 := by
  rw [positionAt, Nat.mod_eq_of_lt h]

theorem Hook.holdsOffhook_iff (h : Hook) : h.holdsOffhook = true ↔ h.state = .offhook ∨ h.state = .brk := by
  unfold Hook.holdsOffhook
  cases h.state <;> simp

/-- Checks 2 to 5 of R149. -/
theorem State.mayRing_iff (s : State) (x : Line) (armed : Bool) (w : Showing) : s.mayRing x armed w = true ↔
    armed = true ∧ x.hook.state ≠ .offhook ∧ x.hook.state ≠ .brk ∧ s.arb.faults.getLsbD w.voice.channel.val = false
      ∧ x.test.running = false := by
  have offhook : x.hook.holdsOffhook = false ↔ x.hook.state ≠ .offhook ∧ x.hook.state ≠ .brk := by
    rw [← Bool.not_eq_true, Hook.holdsOffhook_iff, not_or]
  simp [State.mayRing, Arbiter.faulted, offhook, and_assoc]

/-! ### The step -/

/-- In the phase RINGING the play record asserts its drive (R150). -/
theorem Play.rung_drive (p : Play) (d : RingDrive) : (p.rung d).drive = some d := by
  unfold Play.rung
  split
  · next same => exact same
  · rfl

namespace State

variable {s : State} {l : LineNo} {e : Entry} {φ : Nat} {p : Play}

/-- The step of a line whose entry is PLACED, with its play record or one that opens (R148, R149). -/
theorem ringStep_placed (row : s.row l = some e) (placed : e.state = .placed φ) :
    s.ringStep l = s.playStep l e φ ((s.line l).play.getD (Play.opened e)) := by simp only [ringStep, row, placed]

/-- The play record of a line at its step, armed as R151 judges it. -/
def judgedPlay (s : State) (e : Entry) (φ : Nat) (p : Play) : Play :=
  { p with armed := p.armedAt (s.showing e φ s.timebase.cycleStep) }

/-- Ringing is applied: the entry is ON, and checks 2 to 5 of R149 pass. -/
def ringsAt (s : State) (l : LineNo) (e : Entry) (φ : Nat) (p : Play) : Prop :=
  let w := s.showing e φ s.timebase.cycleStep
  w.on = true ∧ s.mayRing (s.line l) (p.armedAt w) w = true

/-- The phase RINGING with the drive of the voice in use (R149, R150). -/
theorem playStep_rings (h : s.ringsAt l e φ p) : s.playStep l e φ p =
    s.updLine l fun y => { y with
      play := some ((s.judgedPlay e φ p).rung ((s.line l).ringDrive (s.showing e φ s.timebase.cycleStep).voice)) } := by
  obtain ⟨on, may⟩ := h
  unfold playStep
  dsimp only
  rw [if_neg (by simp [on]), if_pos may]
  rfl

/-- The phase QUIET (R149, R150). -/
def quieted (s : State) (l : LineNo) (e : Entry) (φ : Nat) (p : Play) : State :=
  s.updLine l fun y => { y with play := some (s.judgedPlay e φ p).quiet }

/-- A line held back from ringing at an ON step is QUIET (R149). -/
theorem playStep_held (on : (s.showing e φ s.timebase.cycleStep).on = true) (h : ¬s.ringsAt l e φ p) :
    s.playStep l e φ p = s.quieted l e φ p := by
  have stopped : ¬s.mayRing (s.line l) (p.armedAt (s.showing e φ s.timebase.cycleStep))
      (s.showing e φ s.timebase.cycleStep) = true := fun may => h ⟨on, may⟩
  unfold playStep
  dsimp only
  rw [if_neg (by simp [on]), if_neg stopped]
  rfl

/-- A line whose entry is OFF is QUIET, and a burst that so ends is noticed (R149, R159). -/
theorem playStep_off (off : (s.showing e φ s.timebase.cycleStep).on = false) :
    s.playStep l e φ p = (s.quieted l e φ p).endBurst l e (s.judgedPlay e φ p) := by
  unfold playStep
  dsimp only
  rw [if_pos (by simp [off])]
  rfl

/-- No burst of a TEST entry ends: there is no notice (R159). -/
theorem endBurst_none (h : e.reqType ≠ .test ∨ p.drive = none) : s.endBurst l e p = s := by
  refine if_neg fun both => ?_
  obtain ⟨test, driven⟩ := both
  rcases h with other | none'
  · exact other test
  · simp [none'] at driven

/-- The burst of a TEST entry ends with the averages of its measured scans (R159). -/
theorem endBurst_test (test : e.reqType = .test) (driven : p.drive ≠ none) :
    s.endBurst l e p = s.burstEnd l p.measured (p.acSum / p.measured) (p.dcSum / p.measured) :=
  if_pos ⟨test, Option.isSome_iff_ne_none.mpr driven⟩

end State

end Sys2Proof.Machine

open Sys2Proof Sys2Proof.Machine

/-- Settles O51: the drive by what it finds of the line, and the step by whether ringing is applied, the entry is ON, and a
burst of a TEST entry ends. -/
theorem ringEngineStepsPlacedLines : Obligations.RingEngineStepsPlacedLines := by
  refine ⟨fun x => ⟨Line.drive_testing, fun p d => Line.drive_rung, fun testing silent => ?_⟩,
    fun l e φ s row placed small => ?_⟩
  · rw [Line.drive_quiet testing silent]
    exact x.baseDrive_eq
  · intro x before p v on armed side rings t
    have step : t = s.playStep l e φ before := State.ringStep_placed row placed
    have shown : s.showing e φ s.timebase.cycleStep = ⟨v, on, s.patternOn v.pattern ((p + 59) % 60)⟩ := by
      rw [State.showing, positionAt_of_lt small]
      rfl
    have play : s.judgedPlay e φ before = { before with armed := armed } := by rw [State.judgedPlay, shown]; rfl
    have quieted : s.quieted l e φ before = s.setLine l { x with play := some ⟨none, 0, 0, 0, armed, 0, 0, 0⟩ } := by
      rw [State.quieted, play]
      rfl
    have ringing : s.ringsAt l e φ before ↔ rings := by
      rw [State.ringsAt, shown, State.mayRing_iff]
      rfl
    refine ⟨fun applied => ?_, fun held cause => ?_, fun off test driven => ?_⟩
    · have rung := State.playStep_rings (ringing.mpr applied)
      rw [← step, play, shown] at rung
      have line : t = s.setLine l { x with play := some (
          if before.drive = some ⟨side, v.channel⟩ then
            { before with armed := armed, burstStep := min 255 (before.burstStep + 1) }
          else ⟨some ⟨side, v.channel⟩, 1, 0, 0, armed, 0, 0, 0⟩) } := rung
      have now : t.line l = { x with play := some (({ before with armed := armed } : Play).rung ⟨side, v.channel⟩) } := by
        rw [line, State.line_setLine, if_pos rfl]
        rfl
      exact ⟨line, fun testing => Line.drive_rung (by rw [now]; exact testing) (by rw [now])
        (Play.rung_drive _ ⟨side, v.channel⟩)⟩
    · cases shows : on with
      | true => rw [step, State.playStep_held (by rw [shown]; exact shows) (ringing.not.mpr held), quieted]
      | false =>
        rw [step, State.playStep_off (by rw [shown]; exact shows), State.endBurst_none, quieted]
        rw [play]
        exact cause.resolve_left (by simp [shows])
    · rw [step, State.playStep_off (by rw [shown]; exact off), State.endBurst_test test (by rw [play]; exact driven),
        quieted, play]
end

section
/-! What an event leaves of a line's reports when it has led to the state at which the call ends, changes or is rung: the
shared part of the host's commands, the on-hook event and the call timer (R63, R67, R93, R125). -/

namespace Sys2Proof.Machine

/-- The event has led from `s` to `v` with the call of line `l`, its open record and its digits as they were, nothing
reported and the settings unchanged. -/
structure CallPoint (l : LineNo) (s v : State) : Prop where
  call : (v.line l).call = (s.line l).call
  record : (v.line l).record = (s.line l).record
  digits : (v.line l).digits = (s.line l).digits
  link : v.link = s.link
  stamp : v.stamp = s.stamp
  settings : v.settings = s.settings

namespace CallPoint

variable {s u v t : State} {l : LineNo}

theorem refl (l : LineNo) (s : State) : CallPoint l s s := ⟨rfl, rfl, rfl, rfl, rfl, rfl⟩

theorem trans (h : CallPoint l s u) (k : CallPoint l u v) : CallPoint l s v :=
  ⟨k.call.trans h.call, k.record.trans h.record, k.digits.trans h.digits, k.link.trans h.link, k.stamp.trans h.stamp,
    k.settings.trans h.settings⟩

theorem updLine (f : Line → Line) (call : (f (s.line l)).call = (s.line l).call)
    (record : (f (s.line l)).record = (s.line l).record) (digits : (f (s.line l)).digits = (s.line l).digits) :
    CallPoint l s (s.updLine l f) := by
  refine ⟨?_, ?_, ?_, rfl, rfl, rfl⟩ <;> rw [State.line_updLine, if_pos rfl] <;> assumption

theorem removeEntry (l : LineNo) (s : State) : CallPoint l s (s.removeEntry l) := by
  have kept : Kept s (s.removeEntry l) := Kept.removeEntry l
  refine ⟨?_, ?_, ?_, State.removeEntry_link l s, kept.stamp, kept.settings⟩ <;> rw [State.line_removeEntry]

theorem hookMoved (l : LineNo) (k : Hook) (s : State) : CallPoint l s (s.hookMoved l k) := by
  refine ⟨?_, ?_, ?_, rfl, State.hookMoved_stamp l k s, rfl⟩ <;> rw [State.line_hookMoved]

/-- The held works are none of the line's call. -/
theorem withDue (ws : List Work) : CallPoint l s { s with due := ws } := ⟨rfl, rfl, rfl, rfl, rfl, rfl⟩

theorem mask (h : CallPoint l s v) : v.link.mask = s.link.mask := by rw [h.link]

theorem pendingLine (h : CallPoint l s v) (k : ReportKind) : v.pendingLine k l = s.pendingLine k l := by
  unfold State.pendingLine
  rw [h.link]

/-- The call ends: its record, with the report of it (R93). -/
theorem ends (h : CallPoint l s v) (new : CallState) (c : EndCause) {r : Record} (opened : (s.line l).record = some r) :
    s.ends (v.endCall l new c) l r (s.line l).digits c := by
  have ended := State.endCall_ends (new := new) c (h.record.trans opened)
  rw [h.digits] at ended
  exact State.ends_of_before ended h.stamp h.mask (h.pendingLine _)

theorem endCall_tells (h : CallPoint l s v) {new : CallState} (c : EndCause) (away : (s.line l).call ≠ new) :
    s.tells (v.endCall l new c) l ((s.line l).record.map fun _ => c) := by
  have told := State.endCall_tells (s := v) (l := l) c (by rwa [h.call])
  rw [h.record] at told
  exact State.tells_of_before told h.stamp h.mask h.call

/-- A call with a record ends and is told with its cause (R63, R93). -/
theorem ended (h : CallPoint l s v) {new : CallState} (c : EndCause) (away : (s.line l).call ≠ new) {r : Record}
    (opened : (s.line l).record = some r) :
    s.ends (v.endCall l new c) l r (s.line l).digits c ∧ s.tells (v.endCall l new c) l (some c) := by
  have told := h.endCall_tells c away
  rw [opened] at told
  exact ⟨h.ends new c opened, told⟩

theorem enter_tells (h : CallPoint l s v) {new : CallState} (away : (s.line l).call ≠ new) :
    s.tells (v.enter l new) l none :=
  State.tells_of_before (State.enter_tells (by rwa [h.call])) h.stamp h.mask h.call

theorem endCall_timer (h : CallPoint l s v) (new : CallState) (c : EndCause) :
    ((v.endCall l new c).line l).timer = s.settings.armed new := by
  rw [State.line_endCall, h.settings]

end CallPoint

namespace State

variable {s v : State} {l : LineNo}

/-! ### Requests -/

/-- A new entry waits or is placed at once, with nothing waited (R125, R129). -/
theorem row_request_new (cls : EntryClass) (typ : RequestType) (a : Voice) (b : Option Voice) (l : LineNo) (s : State) :
    ∃ e, (s.request l (Entry.new cls typ a b)).row l = some e ∧ e.cls = cls ∧ e.reqType = typ ∧ e.voiceA = a
      ∧ e.voiceB = b ∧ e.waited = 0 ∧ e.delayed = false := by
  rcases row_request l (Entry.new cls typ a b) s with waits | ⟨φ, placed⟩
  · exact ⟨_, waits, rfl, rfl, rfl, rfl, rfl, rfl⟩
  · exact ⟨_, placed, rfl, rfl, rfl, rfl, rfl, rfl⟩

/-- A request marks no STATE report (R125). -/
theorem request_tells {e : Entry} {c : Option EndCause} (told : s.tells v l c) (other : e.reqType ≠ .test) :
    s.tells (v.request l e) l c := by
  unfold tells
  rw [line_request other]
  exact (SameReport.request e (by decide)).marked told

/-! ### Replies -/

/-- The reply to a command that ends or changes a call carries the state that the event left (R198). -/
theorem okState_endCall (l : LineNo) (new : CallState) (c : EndCause) (s : State) :
    (s.endCall l new c).okState l = (s.endCall l new c, [0x00, new.code]) := by
  rw [okState, line_endCall]
  rfl

theorem okState_enter (l : LineNo) (new : CallState) (s : State) :
    (s.enter l new).okState l = (s.enter l new, [0x00, new.code]) := by
  rw [okState, line_enter]
  rfl

end State

end Sys2Proof.Machine
end

section
/-! The commands that end a call: RING_CANCEL, REJECT, DISCONNECT and LINE_RELEASE (R74, R76, R79, R80, R87). -/

namespace Sys2Proof.Machine.State

variable {s : State} {l : LineNo}

theorem carryRingCancel_refused (h : (s.line l).call ≠ .termRing) :
    s.carryRingCancel [lineByte l] = (s, [0x02, (s.line l).call.code]) := by
  simp only [carryRingCancel, lineAt_line, if_neg h]
  rfl

theorem carryRingCancel_taken (h : (s.line l).call = .termRing) :
    s.carryRingCancel [lineByte l] = ((s.removeEntry l).endCall l .idle .canceled, [0x00, 1]) := by
  simp only [carryRingCancel, lineAt_line, if_pos h, okState_endCall]
  rfl

theorem carryReject_refused (h : (s.line l).call ≠ .exchWait) :
    s.carryReject [lineByte l] = (s, [0x02, (s.line l).call.code]) := by
  simp only [carryReject, lineAt_line, if_neg h]
  rfl

theorem carryReject_taken (h : (s.line l).call = .exchWait) :
    s.carryReject [lineByte l] = (s.endCall l .reorder .rejected, [0x00, 12]) := by
  simp only [carryReject, lineAt_line, if_pos h, okState_endCall]
  rfl

theorem carryDisconnect_refused (h : (s.line l).call ≠ .exchange) :
    s.carryDisconnect [lineByte l] = (s, [0x02, (s.line l).call.code]) := by
  simp only [carryDisconnect, lineAt_line, if_neg h]
  rfl

theorem carryDisconnect_taken (h : (s.line l).call = .exchange) : s.carryDisconnect [lineByte l] =
    (s.endCall l (s.line l).releaseTarget .released, [0x00, (s.line l).releaseTarget.code]) := by
  simp only [carryDisconnect, lineAt_line, if_pos h, okState_endCall]

theorem holdsOut_iff (c : CallState) : c.holdsOut = true ↔ c = .disabled ∨ c = .test ∨ c = .calibrating := by
  cases c <;> simp [CallState.holdsOut]

theorem carryLineRelease_refused (h : (s.line l).call.holdsOut = true) :
    s.carryLineRelease [lineByte l] = (s, [0x02, (s.line l).call.code]) := by
  simp only [carryLineRelease, lineAt_line, if_pos h]
  rfl

/-- The line that is being released, as its call is about to end: no entry, no party test (R87). -/
def releasing (l : LineNo) (s : State) : State :=
  (s.removeEntry l).updLine l fun x => { x with test := PartyTest.idle }

theorem releasing_point (l : LineNo) (s : State) : CallPoint l s (s.releasing l) :=
  (CallPoint.removeEntry l s).trans (.updLine _ rfl rfl rfl)

theorem releasing_kept (l : LineNo) (s : State) : Kept s (s.releasing l) :=
  (Kept.removeEntry l).trans (Kept.updLine l _ rfl)

theorem releasing_local (l : LineNo) (s : State) : Local l s (s.releasing l) :=
  (Local.removeEntry l).trans (Local.updLine l _)

theorem line_releasing (l : LineNo) (s : State) : (s.releasing l).line l = { s.line l with
    play := if s.row l = none then (s.line l).play else none, test := PartyTest.idle } := by
  rw [releasing, line_updLine, if_pos rfl, line_removeEntry]

theorem row_releasing (l : LineNo) (s : State) : (s.releasing l).row l = none := row_removeEntry l s

theorem carryLineRelease_taken (h : (s.line l).call.holdsOut = false) : s.carryLineRelease [lineByte l] =
    ((s.releasing l).endCall l (s.line l).releaseTarget .released, [0x00, (s.line l).releaseTarget.code]) := by
  simp only [carryLineRelease, lineAt_line, if_neg (Bool.eq_false_iff.mp h), releaseLine, okState_endCall]
  rfl

/-- A release leads to REORDER where the hook machine holds OFFHOOK, and to IDLE elsewhere (R76, R87). -/
theorem releaseTarget_eq (x : Line) : x.releaseTarget =
    if x.hook.state = .offhook ∨ x.hook.state = .brk then .reorder else .idle := by
  simp only [Line.releaseTarget, Hook.holdsOffhook_iff]

theorem releaseTarget_cases (x : Line) : x.releaseTarget = .reorder ∨ x.releaseTarget = .idle := by
  unfold Line.releaseTarget
  split
  · exact .inl rfl
  · exact .inr rfl

end Sys2Proof.Machine.State

open Sys2Proof Sys2Proof.Machine

/-- Settles O26: each command refused out of its states, and in them the end of the call from the point at which the line
has lost what the command takes from it. -/
theorem callsEndedByTheHost : Obligations.CallsEndedByTheHost := by
  intro tag l s ready x released
  have target : (s.line l).releaseTarget = released := State.releaseTarget_eq x
  have cancel : ∀ {t reply}, s.carryRingCancel _ = (t, reply) → _ :=
    exec_carried .ringCancel tag _ ready rfl (lineField_only l)
  have reject : ∀ {t reply}, s.carryReject _ = (t, reply) → _ :=
    exec_carried .reject tag _ ready rfl (lineField_only l)
  have disconnect : ∀ {t reply}, s.carryDisconnect _ = (t, reply) → _ :=
    exec_carried .disconnect tag _ ready rfl (lineField_only l)
  have release : ∀ {t reply}, s.carryLineRelease _ = (t, reply) → _ :=
    exec_carried .lineRelease tag _ ready rfl (lineField_only l)
  have here := CallPoint.refl l s
  refine ⟨fun away => cancel (State.carryRingCancel_refused away), fun (ring : (s.line l).call = .termRing) => ?_,
    fun away => reject (State.carryReject_refused away), fun (wait : (s.line l).call = .exchWait) => ?_,
    fun away => disconnect (State.carryDisconnect_refused away),
    fun (exchange : (s.line l).call = .exchange) => ?_,
    fun out => release (State.carryLineRelease_refused ((State.holdsOut_iff _).mpr out)),
    fun disabled test calibrating => ?_⟩
  · have point := CallPoint.removeEntry l s
    refine ⟨_, cancel (State.carryRingCancel_taken ring),
      .of_kept ((Kept.removeEntry l).trans (Kept.endCall l _ _)) ((Local.removeEntry l).trans (Local.endCall l _ _)),
      by rw [State.row_endCall, State.row_removeEntry], by rw [State.line_endCall], point.endCall_timer _ _,
      fun r => point.ended _ ?_⟩
    rw [ring]
    nofun
  · refine ⟨_, reject (State.carryReject_taken wait), .of_kept (Kept.endCall l _ _) (Local.endCall l _ _),
      State.row_endCall _ _ _ _ _, by rw [State.line_endCall], here.endCall_timer _ _, fun r => here.ended _ ?_⟩
    rw [wait]
    nofun
  · have taken := State.carryDisconnect_taken exchange
    rw [target] at taken
    refine ⟨_, disconnect taken, .of_kept (Kept.endCall l _ _) (Local.endCall l _ _), State.row_endCall _ _ _ _ _,
      by rw [State.line_endCall], fun r => here.ended _ ?_⟩
    rw [exchange, ← target]
    rcases State.releaseTarget_cases x with new | new <;> rw [new] <;> nofun
  · have open' : (s.line l).call.holdsOut = false := by
      rw [← Bool.not_eq_true, State.holdsOut_iff]
      exact not_or.mpr ⟨disabled, not_or.mpr ⟨test, calibrating⟩⟩
    have taken := State.carryLineRelease_taken open'
    rw [target] at taken
    have point := State.releasing_point l s
    have line := State.line_endCall l released .released (s.releasing l)
    rw [State.line_releasing] at line
    refine ⟨_, release taken, .of_kept ((State.releasing_kept l s).trans (Kept.endCall l _ _))
        ((State.releasing_local l s).trans (Local.endCall l _ _)), by rw [State.row_endCall, State.row_releasing],
      by rw [line]; rfl, by rw [line], ?_, by rw [line], by rw [line], fun r => point.ends _ _, point.endCall_tells _⟩
    rw [point.endCall_timer, ← target]
    rcases State.releaseTarget_cases x with new | new <;> rw [new] <;> rfl
end

section
/-! RING_PARTY (R77, R18): its address, its checks in order, and the terminating call that it opens. -/

namespace Sys2Proof.Machine

/-! ### The payload -/

/-- The no-answer time that ends the payload of RING_PARTY passes: 0 or 10 to 600 seconds (R198). -/
theorem noAnswerTime_passes {n : Nat} (h : n = 0 ∨ (10 ≤ n ∧ n ≤ 600)) : (n == 0 || within 10 600 n) = true := by
  simpa [within] using h

/-- RING_PARTY by line and slot passes its checks (R198). -/
theorem ringParty_slot_passes {p : List Byte} (mode : byteAt p 0 = 0) (line : byteAt p 1 ≤ 15)
    (slot : 1 ≤ byteAt p 2 ∧ byteAt p 2 ≤ 8) (time : wordAt p 3 = 0 ∨ (10 ≤ wordAt p 3 ∧ wordAt p 3 ≤ 600)) :
    ∀ k ∈ fieldChecks .ringParty p, k.1 = true := by
  rw [fieldChecks, ringPartyChecks, if_pos mode]
  simp only [List.cons_append, List.nil_append, List.forall_mem_cons, lineField,
    byteIn_passes_iff, mode]
  exact ⟨⟨Nat.zero_le _, Nat.zero_le _⟩, ⟨Nat.zero_le _, line⟩, slot, noAnswerTime_passes time, List.forall_mem_nil _⟩

/-- RING_PARTY by suffix passes its checks (R198). -/
theorem ringParty_suffix_passes {p : List Byte} (mode : byteAt p 0 = 1) (suffix : wordAt p 1 ≤ 999)
    (time : wordAt p 3 = 0 ∨ (10 ≤ wordAt p 3 ∧ wordAt p 3 ≤ 600)) : ∀ k ∈ fieldChecks .ringParty p, k.1 = true := by
  have second : byteAt p 0 ≠ 0 := by omega
  rw [fieldChecks, ringPartyChecks, if_neg second]
  simp only [List.cons_append, List.nil_append, List.forall_mem_cons, byteIn_passes_iff,
    wordIn_passes_iff, mode]
  exact ⟨⟨Nat.zero_le _, le_refl _⟩, ⟨Nat.zero_le _, suffix⟩, noAnswerTime_passes time, List.forall_mem_nil _⟩

/-- The payload of RING_PARTY by line and slot reads back (R192, R198). -/
theorem slotForm_reads (l : LineNo) (i : Slot) {n : Nat} (h : n < 65536) {p : List Byte}
    (form : p = [0, lineByte l, slotByte (some i)] ++ toBytes2 n) :
    byteAt p 0 = 0 ∧ byteAt p 1 = l.val ∧ byteAt p 2 = i.val + 1 ∧ wordAt p 3 = n := by
  subst form
  exact ⟨rfl, lineByte_toNat l, slotByte_toNat i, twoBytes_toNat h⟩

/-- The payload of RING_PARTY by suffix reads back (R192, R198). -/
theorem suffixForm_reads {x n : Nat} (hx : x < 65536) (hn : n < 65536) {p : List Byte}
    (form : p = 1 :: (toBytes2 x ++ toBytes2 n)) : byteAt p 0 = 1 ∧ wordAt p 1 = x ∧ wordAt p 3 = n := by
  subst form
  exact ⟨rfl, twoBytes_toNat hx, twoBytes_toNat hn⟩

/-- A RING_PARTY at a ready link that names a line and slot is judged by its checks (R77). -/
theorem exec_ringParty (tag : Byte) {p : List Byte} {s t : State} {reply : List Byte} {l : LineNo} {i : Slot} {n : Nat}
    (ready : s.ready) (time : n = 0 ∨ (10 ≤ n ∧ n ≤ 600))
    (named : p = [0, lineByte l, slotByte (some i)] ++ toBytes2 n
      ∨ ∃ x, x ≤ 999 ∧ s.decodeSuffix x = some (l, i) ∧ p = 1 :: (toBytes2 x ++ toBytes2 n))
    (judged : s.ringParty l i n = (t, reply)) : exec (.ringParty tag p) s = .next (t.replied ⟨0xB0, tag, reply⟩) := by
  rcases named with form | ⟨x, hx, some', form⟩
  · obtain ⟨mode, line, slot, read⟩ := slotForm_reads l i (by omega) form
    have address : s.ringAddress p = some (l, i) := by
      rw [State.ringAddress, if_pos mode, lineAt, slotAt, line, slot, ofNat_line, Nat.add_sub_cancel, ofNat_slot]
    have carried : s.carryRingParty p = (t, reply) := by simp only [State.carryRingParty, address, read, judged]
    exact exec_carried .ringParty tag p ready (by rw [form]; rfl)
      (ringParty_slot_passes mode (by omega) (by omega) (by rwa [read])) carried
  · obtain ⟨mode, suffix, read⟩ := suffixForm_reads (by omega) (by omega) form
    have address : s.ringAddress p = some (l, i) := by rw [State.ringAddress, if_neg (by omega), suffix, some']
    have carried : s.carryRingParty p = (t, reply) := by simp only [State.carryRingParty, address, read, judged]
    exact exec_carried .ringParty tag p ready (by rw [form]; rfl)
      (ringParty_suffix_passes mode (by omega) (by rwa [read])) carried

/-- An unassigned suffix is refused (R77). -/
theorem exec_ringParty_unassigned (tag : Byte) {s : State} {x n : Nat} (ready : s.ready)
    (time : n = 0 ∨ (10 ≤ n ∧ n ≤ 600)) (hx : x ≤ 999) (none' : s.decodeSuffix x = none) :
    exec (.ringParty tag (1 :: (toBytes2 x ++ toBytes2 n))) s = .next (s.replied ⟨0xB0, tag, [0x08]⟩) := by
  obtain ⟨mode, suffix, read⟩ := suffixForm_reads (x := x) (n := n) (by omega) (by omega) rfl
  have address : s.ringAddress (1 :: (toBytes2 x ++ toBytes2 n)) = none := by
    rw [State.ringAddress, if_neg (by omega), suffix, none']
  have carried : s.carryRingParty (1 :: (toBytes2 x ++ toBytes2 n)) = (s, [0x08]) := by
    simp only [State.carryRingParty, address]
    rfl
  exact exec_carried .ringParty tag _ ready rfl (ringParty_suffix_passes mode (by omega) (by rwa [read])) carried

namespace State

variable {s : State} {l : LineNo} {i : Slot} {n : Nat}

/-! ### The checks in their order -/

theorem ringParty_notFitted (h : (s.line l).fitted = false) : s.ringParty l i n = (s, [0x12]) := by
  simp only [ringParty, h]
  rfl

section

variable (fitted : (s.line l).fitted = true)

include fitted

theorem ringParty_disabled (h : (s.line l).enabled = false) : s.ringParty l i n = (s, [0x13]) := by
  simp only [ringParty, fitted, h]
  rfl

variable (enabled : (s.line l).enabled = true)

include enabled

theorem ringParty_busy (h : (s.line l).call ≠ .idle) : s.ringParty l i n = (s, [0x01, (s.line l).call.code]) := by
  simp only [ringParty, fitted, enabled, if_pos h]
  rfl

variable (idle : (s.line l).call = .idle)

include idle

theorem ringParty_unassigned (h : ((s.line l).active.entries.get i).present = false) :
    s.ringParty l i n = (s, [0x08]) := by
  simp only [ringParty, fitted, enabled, idle, h]
  rfl

variable (present : ((s.line l).active.entries.get i).present = true)

include present

theorem ringParty_noLoad (h : (s.line l).loads.get ((s.line l).active.entries.get i).channel = 0) :
    s.ringParty l i n = (s, [0x0E]) := by
  simp only [ringParty, fitted, enabled, idle, present, if_pos h]
  rfl

theorem ringParty_accepted (h : (s.line l).loads.get ((s.line l).active.entries.get i).channel ≠ 0) :
    s.ringParty l i n =
      (s.ringAccepted l i ((s.line l).active.entries.get i) n, [0x00, lineByte l, slotByte (some i)]) := by
  simp only [ringParty, fitted, enabled, idle, present, if_neg h]
  rfl

end

/-! ### The accepted command -/

/-- A terminating call as it stands before its request: the record opened, the line in TERM_RING, its timer set (R77). -/
def ringOpened (l : LineNo) (i : Slot) (n : Nat) (s : State) : State :=
  ((s.openCall l { Record.opened .terminated s.stamp with called := some i }).enter l .termRing).updLine l fun x =>
    { x with timer := some (s.noAnswerCount n) }

theorem ringAccepted_eq (e : PartyEntry) : s.ringAccepted l i e n =
    (s.ringOpened l i n).request l (Entry.new .ordinary .terminating ((s.line l).partyVoice e) none) := rfl

theorem line_ringOpened : (s.ringOpened l i n).line l = { s.line l with
    record := some { Record.opened .terminated s.stamp with called := some i }, digits := DigitBuffer.empty
    out := OutList.empty, call := .termRing, timer := some (s.noAnswerCount n), dialBegun := false
    track := (s.line l).trackAfter .termRing } := by
  rw [ringOpened, line_updLine, if_pos rfl, line_enter]
  simp [openCall, Line.trackAfter]

theorem ringOpened_tells (away : (s.line l).call ≠ .termRing) : s.tells (s.ringOpened l i n) l none := by
  have told : s.tells ((s.openCall l { Record.opened .terminated s.stamp with called := some i }).enter l .termRing) l none :=
    tells_of_before (enter_tells (by simpa [openCall] using away)) rfl rfl (by simp [openCall])
  unfold tells at told ⊢
  rw [ringOpened, line_updLine, if_pos rfl]
  exact told

/-- The line of an accepted RING_PARTY: the request leaves it alone (R77, R125). -/
theorem line_ringAccepted (e : PartyEntry) : (s.ringAccepted l i e n).line l = (s.ringOpened l i n).line l := by
  rw [ringAccepted_eq, line_request (by nofun)]

theorem ringAccepted_local (e : PartyEntry) : Local l s (s.ringAccepted l i e n) :=
  (((Local.openCall l _).trans (Local.enter l _)).trans (Local.updLine l _)).trans (Local.request l _)

end State

end Sys2Proof.Machine

open Sys2Proof Sys2Proof.Machine

/-- Settles O25: the address, then the checks in their order, then the call opened before its request and what the request
leaves of it. -/
theorem ringPartyOpensATerminatingCall : Obligations.RingPartyOpensATerminatingCall := by
  intro tag n s ready time
  refine ⟨fun x => exec_ringParty_unassigned tag ready time, fun l i p named => ?_⟩
  intro x e ring
  have carried : ∀ {t reply}, s.ringParty l i n = (t, reply) → ring = .next (t.replied ⟨0xB0, tag, reply⟩) :=
    exec_ringParty tag ready time named
  refine ⟨fun fitted => carried (State.ringParty_notFitted fitted),
    fun fitted off => carried (State.ringParty_disabled fitted off),
    fun fitted enabled busy => carried (State.ringParty_busy fitted enabled busy),
    fun fitted enabled idle absent => carried (State.ringParty_unassigned fitted enabled idle absent),
    fun fitted enabled idle present unloaded =>
      carried (State.ringParty_noLoad fitted enabled idle present unloaded),
    fun fitted enabled (idle : (s.line l).call = .idle) present loaded =>
      ⟨_, carried (State.ringParty_accepted fitted enabled idle present loaded), ?_⟩⟩
  have away : (s.line l).call ≠ .termRing := by rw [idle]; nofun
  have told : s.tells (s.ringAccepted l i e n) l none := State.request_tells (State.ringOpened_tells away) (by nofun)
  have line := State.line_ringAccepted (s := s) (l := l) (i := i) (n := n) e
  rw [State.line_ringOpened] at line
  refine ⟨.of_kept (Kept.ringAccepted l i e n) (State.ringAccepted_local e), ?_, told, ?_, ?_, ?_, ?_, ?_,
    State.row_request_new _ _ _ _ l _⟩ <;> rw [line]
  · rfl
  · rfl
  · rfl
  · exact Line.trackAfter_leaving idle (by decide)
  · rfl
end

section
/-! CONNECT (R74, R75), TEST_ACCESS and TEST_RELEASE (R88, R89). -/

namespace Sys2Proof.Machine.State

variable {s : State} {l : LineNo}

/-! ### CONNECT -/

theorem carryConnect_refused (h : (s.line l).call ≠ .exchWait) :
    s.carryConnect [lineByte l] = (s, [0x02, (s.line l).call.code]) := by
  simp only [carryConnect, lineAt_line, if_neg h]
  rfl

theorem carryConnect_taken (h : (s.line l).call = .exchWait) :
    s.carryConnect [lineByte l] = (s.connectLine l, [0x00, 5]) := by
  simp only [carryConnect, lineAt_line, if_pos h, connectLine, okState_enter]
  rfl

/-- The record of a line that is connected: an originated one without an answer gets its stamp (R74). -/
def answered (s : State) (r : Record) : Record :=
  if r.kind = .originated ∧ r.answer = none then { r with answer := some s.stamp } else r

/-- The state of a connection before EXCHANGE: the record answered, and what the outgoing list holds reported (R75). -/
def connecting (l : LineNo) (s : State) : State :=
  if (s.line l).out = OutList.empty then s.updRecord l s.answered else (s.updRecord l s.answered).markDigits l

theorem connectLine_eq (l : LineNo) (s : State) : s.connectLine l = (s.connecting l).enter l .exchange := by
  have holds : ((s.line l).out.digits.isEmpty && !(s.line l).out.overflow && !(s.line l).out.digitError) = true
      ↔ (s.line l).out = OutList.empty := by
    obtain ⟨digits, overflow, digitError⟩ := (s.line l).out
    simp [OutList.empty, and_assoc]
  simp only [connectLine, connecting, holds]
  rfl

theorem line_connecting (l : LineNo) (s : State) :
    (s.connecting l).line l = { s.line l with record := (s.line l).record.map s.answered } := by
  unfold connecting
  split
  · rw [line_updRecord]
  · rw [line_markDigits, line_updRecord]

theorem connecting_arb (l : LineNo) (s : State) : (s.connecting l).arb = s.arb := by
  unfold connecting
  split
  · rfl
  · exact markLine_arb _ _ _ _

theorem connecting_kept (l : LineNo) (s : State) : Kept s (s.connecting l) := by
  have record : Kept s (s.updRecord l s.answered) := Kept.updRecord l _
  unfold connecting
  split
  · exact record
  · exact record.trans (Kept.markDigits l)

theorem connecting_local (l : LineNo) (s : State) : Local l s (s.connecting l) := by
  have record : Local l s (s.updRecord l s.answered) := Local.updRecord l _
  unfold connecting
  split
  · exact record
  · exact record.trans (Local.markDigits l)

/-- A list that holds anything is reported (R75). -/
theorem connecting_marked (h : (s.line l).out ≠ OutList.empty) : (s.connecting l).marked s.link.mask .digits l
    ([lineByte l, toByte ((if (s.line l).out.overflow then 1 else 0) + (if (s.line l).out.digitError then 2 else 0))]
      ++ digitList (s.line l).out.digits) := by
  have marked := markDigits_marked l (s.updRecord l s.answered)
  rw [line_updRecord] at marked
  rw [connecting, if_neg h]
  exact marked

/-- An empty list is not reported (R75). -/
theorem connecting_silent (h : (s.line l).out = OutList.empty) : SameReport .digits l s (s.connecting l) := by
  rw [connecting, if_pos h]
  exact .of_link rfl

/-! ### Test access -/

theorem carryTestAccess_refused (idle : (s.line l).call ≠ .idle) (lockout : (s.line l).call ≠ .lockout) :
    s.carryTestAccess [lineByte l] = (s, [0x02, (s.line l).call.code]) := by
  simp only [carryTestAccess, lineAt_line, if_neg (not_or.mpr ⟨idle, lockout⟩)]
  rfl

/-- The line of a test access, as its call state is about to change: the state saved, the tracking window ended (R88). -/
def accessing (l : LineNo) (s : State) : State := s.updLine l fun x => { x with track := ⟨0, 0⟩, saved := some x.call }

theorem line_accessing (l : LineNo) (s : State) :
    (s.accessing l).line l = { s.line l with track := ⟨0, 0⟩, saved := some (s.line l).call } := by
  rw [accessing, line_updLine, if_pos rfl]

theorem accessing_point (l : LineNo) (s : State) : CallPoint l s (s.accessing l) := .updLine _ rfl rfl rfl

theorem carryTestAccess_taken (h : (s.line l).call = .idle ∨ (s.line l).call = .lockout) :
    s.carryTestAccess [lineByte l] = ((s.accessing l).enter l .test, [0x00, 14]) := by
  simp only [carryTestAccess, lineAt_line, if_pos h, okState_enter]
  rfl

theorem carryTestRelease_refused (h : (s.line l).call ≠ .test) :
    s.carryTestRelease [lineByte l] = (s, [0x02, (s.line l).call.code]) := by
  simp only [carryTestRelease, lineAt_line, if_neg h]
  rfl

/-- The line of a test release, as its call state is about to change: its hook machine restarted (R51, R89; log 10). -/
def testReleasing (l : LineNo) (back : CallState) (s : State) : State :=
  s.updLine l fun x => { x with saved := none, hook := back.assumedHook }

theorem line_testReleasing (l : LineNo) (back : CallState) (s : State) :
    (s.testReleasing l back).line l = { s.line l with saved := none, hook := back.assumedHook } := by
  rw [testReleasing, line_updLine, if_pos rfl]

theorem testReleasing_point (l : LineNo) (back : CallState) (s : State) : CallPoint l s (s.testReleasing l back) :=
  .updLine _ rfl rfl rfl

theorem carryTestRelease_taken {back : CallState} (test : (s.line l).call = .test) (saved : (s.line l).saved = some back) :
    s.carryTestRelease [lineByte l] = ((s.testReleasing l back).enter l back, [0x00, back.code]) := by
  simp only [carryTestRelease, lineAt_line, if_pos test, saved, Option.getD_some, okState_enter]
  rfl

end Sys2Proof.Machine.State

open Sys2Proof Sys2Proof.Machine

/-- Settles O27: the state before EXCHANGE carries the answer and the report of the digits, and entering EXCHANGE tells the
rest. -/
theorem connectLeadsToExchange : Obligations.ConnectLeadsToExchange := by
  intro tag l s ready x
  have connect : ∀ {t reply}, s.carryConnect _ = (t, reply) → _ :=
    exec_carried .connect tag _ ready rfl (lineField_only l)
  refine ⟨fun away => connect (State.carryConnect_refused away), fun (wait : (s.line l).call = .exchWait) =>
    ⟨_, connect (State.carryConnect_taken wait), ?_⟩⟩
  have kept := State.connecting_kept l s
  have told : s.tells ((s.connecting l).enter l .exchange) l none :=
    State.tells_of_before (State.enter_tells (by rw [State.line_connecting, wait]; nofun)) kept.stamp kept.mask
      (by rw [State.line_connecting])
  have reported : SameReport .digits l (s.connecting l) ((s.connecting l).enter l .exchange) := .enter _ (by decide)
  have line := State.line_enter l .exchange (s.connecting l)
  rw [State.line_connecting, Line.trackAfter_elsewhere (by rw [wait]; nofun)] at line
  rw [State.connectLine_eq]
  refine ⟨.of_kept (kept.trans (Kept.enter l _)) ((State.connecting_local l s).trans (Local.enter l _)),
    by rw [State.enter_arb, State.connecting_arb], told, by rw [line]; rfl, fun r opened => ?_, fun held => ?_,
    fun empty => ?_⟩
  · rw [line, show (s.line l).record = some r from opened]
    rfl
  · refine reported.marked (State.connecting_marked fun empty => ?_)
    rw [show x.out = OutList.empty from empty] at held
    simp [OutList.empty] at held
  · exact reported.slot.trans (State.connecting_silent empty).slot

/-- Settles O29: the line as it stands before its call state changes, and the change of the call state. -/
theorem testAccessSavesTheState : Obligations.TestAccessSavesTheState := by
  intro tag l s ready x
  have access : ∀ {t reply}, s.carryTestAccess _ = (t, reply) → _ :=
    exec_carried .testAccess tag _ ready rfl (lineField_only l)
  have release : ∀ {t reply}, s.carryTestRelease _ = (t, reply) → _ :=
    exec_carried .testRelease tag _ ready rfl (lineField_only l)
  refine ⟨fun idle lockout => access (State.carryTestAccess_refused idle lockout), fun free => ?_,
    fun away => release (State.carryTestRelease_refused away),
    fun back (test : (s.line l).call = .test) saved place => ?_⟩
  · have away : (s.line l).call ≠ .test := by
      rcases free with idle | lockout
      · rw [show (s.line l).call = _ from idle]; nofun
      · rw [show (s.line l).call = _ from lockout]; nofun
    refine ⟨_, access (State.carryTestAccess_taken free), .of_kept ((Kept.updLine l _ rfl).trans (Kept.enter l _))
      ((Local.updLine l _).trans (Local.enter l _)), by rw [State.enter_arb]; rfl,
      (State.accessing_point l s).enter_tells away, ?_⟩
    rw [State.line_enter, State.line_accessing]
    simp [Line.trackAfter, Tracking.empty, Settings.armed, x]
  · have away : (s.line l).call ≠ back := by
      rw [test]
      rcases place with rfl | rfl <;> nofun
    refine ⟨_, release (State.carryTestRelease_taken test saved),
      .of_kept ((Kept.updLine l _ rfl).trans (Kept.enter l _)) ((Local.updLine l _).trans (Local.enter l _)),
      by rw [State.enter_arb]; rfl, (State.testReleasing_point l back s).enter_tells away, ?_⟩
    rw [State.line_enter, State.line_testReleasing]
    rw [Line.trackAfter_elsewhere (by rw [test]; nofun)]
    rcases place with rfl | rfl <;> rfl
end

section
/-! ALARM_RING and ALARM_STOP (R83 to R86): what the works of the other lines leave of a line, and the judging of a line. -/

namespace Sys2Proof.Machine

/-! ### What an alarm of another line leaves alone -/

namespace Unmarked

variable {s : State} {l m : LineNo}

/-- A report of the device entry. -/
theorem markDevice (k : ReportKind) (d : List Byte) : Unmarked l s (s.markDevice k d) := by
  have away : State.lineEntry l ≠ deviceEntry := State.lineEntry_ne_device l
  unfold State.markDevice State.mark
  split
  · exact ⟨Tab.get_set_ne _ _ away, Tab.get_set_ne _ _ away⟩
  · exact refl l s

theorem standbyEvent (ev : StandbyEvent) : Unmarked l s (s.standbyEvent ev) := by
  have reloaded : Unmarked l s (s.reloadStandby ev) := of_link (State.reloadStandby_link ev s)
  have woken : Unmarked l (s.reloadStandby ev) (s.reloadStandby ev).wakeSupply :=
    Unmarked.trans (t := (s.reloadStandby ev).updArb _) (of_link rfl) (markDevice _ _)
  unfold State.standbyEvent
  dsimp only
  split
  · exact reloaded.trans woken
  · exact reloaded

theorem joinWaiting : Unmarked l s (s.joinWaiting m) := by
  unfold State.joinWaiting
  split <;> exact of_link rfl

theorem placeEntry (e : Entry) (φ : Nat) (h : l ≠ m) : Unmarked l s (s.placeEntry m e φ) := by
  have placed : ∀ u : State, u.link = s.link → Unmarked l s ((u.placementNotice m e).leftQueue m) := fun u same => by
    unfold State.placementNotice
    split <;> exact of_link same
  unfold State.placeEntry
  dsimp only
  split
  · exact (placed (s.updArb _) rfl).trans (markLine _ _ h)
  · exact placed (s.updArb _) rfl

theorem request (e : Entry) (h : l ≠ m) : Unmarked l s (s.request m e) := by
  have entered : Unmarked l s ((s.setRow m (some e)).standbyEvent .request) :=
    Unmarked.trans (t := s.setRow m (some e)) (of_link rfl) (standbyEvent _)
  refine entered.trans ?_
  unfold State.request State.tryAdmission
  split
  · split
    · exact placeEntry _ _ h
    · exact joinWaiting
  · exact joinWaiting

theorem startAlarm (v : Voice) (n : Nat) (h : l ≠ m) : Unmarked l s (s.startAlarm m v n) := by
  let u := (s.openCall m (Record.opened .alarm s.stamp)).updLine m fun x =>
    { x with alarmPending := none, alarmCount := n }
  have opened : Unmarked l s u := of_link rfl
  exact (opened.trans (enter .alarmRing h)).trans (request _ h)

theorem endAlarm (h : l ≠ m) : Unmarked l s (s.endAlarm m) :=
  (of_link (State.removeEntry_link m s)).trans (endCall _ _ h)

end Unmarked

namespace Apart

variable {s t : State} {l m : LineNo}

/-- Work of another line that marks no report of this one. -/
theorem of_local (kept : Kept s t) (work : Local m s t) (unmarked : Unmarked l s t) (h : l ≠ m) : Apart l s t :=
  ⟨.of_kept kept, unmarked, work.line l h, work.row l h⟩

theorem updLine (f : Line → Line) (plan : (f (s.line m)).plan = (s.line m).plan) (h : l ≠ m) :
    Apart l s (s.updLine m f) := of_local (Kept.updLine m f plan) (Local.updLine m f) (.of_link rfl) h

theorem startAlarm (v : Voice) (n : Nat) (h : l ≠ m) : Apart l s (s.startAlarm m v n) :=
  of_local (Kept.startAlarm m v n) (Local.startAlarm m v n) (.startAlarm v n h) h

theorem endAlarm (h : l ≠ m) : Apart l s (s.endAlarm m) :=
  of_local (Kept.endAlarm m) (Local.endAlarm m) (.endAlarm h) h

/-- The judging of another line by ALARM_RING (R83, R182). -/
theorem alarmRingAt (n : Nat) {l m : LineNo} (s : State) (h : l ≠ m) : Apart l s (Machine.alarmRingAt n m s).1 := by
  unfold Machine.alarmRingAt
  split
  · exact refl l s
  · split
    · exact refl l s
    · split
      · exact startAlarm _ _ h
      · exact updLine (fun x => { x with alarmPending := some n }) rfl h

/-- The judging of another line by ALARM_STOP (R86, R182). -/
theorem alarmStopAt {l m : LineNo} (s : State) (h : l ≠ m) : Apart l s (Machine.alarmStopAt m s).1 := by
  have cleared : Apart l s (s.updLine m fun x => { x with alarmPending := none }) := updLine _ rfl h
  unfold Machine.alarmStopAt
  dsimp only
  split
  · exact cleared.trans (endAlarm h)
  · split
    · exact cleared
    · exact refl l s

end Apart

/-! ### The judging of a line by ALARM_RING -/

theorem State.alarmVoice_none_iff (x : Line) :
    x.alarmVoice = none ↔ x.active.alarmPattern = none ∨ x.loads.get x.active.alarmChannel = 0 := by
  refine ⟨fun none' => ?_, alarmVoice_none⟩
  by_contra held
  obtain ⟨pattern, loaded⟩ := not_or.mp held
  obtain ⟨p, some'⟩ := Option.ne_none_iff_exists'.mp pattern
  exact nomatch none'.symm.trans (alarmVoice_some some' loaded)

/-- The outcome of ALARM_RING for a line, check by check (R83). -/
def Line.alarmOutcome (x : Line) : Status :=
  if x.call = .disabled then .disabled
  else if x.alarmVoice = none then .noAlarm
  else if x.call = .idle then .started
  else .pending

/-- The outcomes as their codes (R193). -/
theorem Line.alarmOutcome_refused (x : Line) : (x.alarmOutcome.code = 0x13 ∨ x.alarmOutcome.code = 0x16) ↔
    x.call = .disabled ∨ x.alarmVoice = none := by
  unfold Line.alarmOutcome
  split_ifs <;> simp_all [Status.code]

theorem Line.alarmOutcome_pending (x : Line) : x.alarmOutcome.code = 0x14 ↔
    x.call ≠ .disabled ∧ x.alarmVoice ≠ none ∧ x.call ≠ .idle := by
  unfold Line.alarmOutcome
  split_ifs <;> simp_all [Status.code]

theorem Line.alarmOutcome_started (x : Line) : x.alarmOutcome.code = 0x15 ↔ x.alarmVoice ≠ none ∧ x.call = .idle := by
  unfold Line.alarmOutcome
  split_ifs <;> simp_all [Status.code]

theorem alarmRingAt_snd (n : Nat) (l : LineNo) (s : State) : (alarmRingAt n l s).2 = (s.line l).alarmOutcome := by
  unfold alarmRingAt Line.alarmOutcome
  split
  · rfl
  · cases (s.line l).alarmVoice with
    | none => rfl
    | some v =>
      dsimp only
      split <;> rfl

section

variable {n : Nat} {l : LineNo} {s : State}

/-- A disabled line, or one with no alarm voice, is left alone (R83). -/
theorem alarmRingAt_refused (h : (s.line l).call = .disabled ∨ (s.line l).alarmVoice = none) :
    (alarmRingAt n l s).1 = s := by
  unfold alarmRingAt
  split
  · rfl
  · next enabled => rw [h.resolve_left enabled]

variable {v : Voice} (voice : (s.line l).alarmVoice = some v)

include voice

/-- On a line in IDLE the alarm starts (R84). -/
theorem alarmRingAt_starts (idle : (s.line l).call = .idle) : (alarmRingAt n l s).1 = s.startAlarm l v n := by
  unfold alarmRingAt
  rw [if_neg (by rw [idle]; nofun), voice]
  dsimp only
  rw [if_pos idle]

/-- On a line in another state the alarm is pending (R83). -/
theorem alarmRingAt_pends (enabled : (s.line l).call ≠ .disabled) (busy : (s.line l).call ≠ .idle) :
    (alarmRingAt n l s).1 = s.updLine l fun x => { x with alarmPending := some n } := by
  unfold alarmRingAt
  rw [if_neg enabled, voice]
  dsimp only
  rw [if_neg busy]

end

/-! ### The judging of a line by ALARM_STOP -/

/-- The outcome of ALARM_STOP for a line (R86). -/
def Line.stopOutcome (x : Line) : Status :=
  if x.call = .alarmRing ∨ x.alarmPending ≠ none then .ok else .wrongState

theorem alarmStopAt_snd (l : LineNo) (s : State) : (alarmStopAt l s).2 = (s.line l).stopOutcome := by
  unfold alarmStopAt Line.stopOutcome
  by_cases ring : (s.line l).call = .alarmRing
  · simp [ring]
  · cases (s.line l).alarmPending <;> simp [ring]

section

variable {l : LineNo} {s : State}

/-- A line with an alarm neither ringing nor pending is left alone (R86). -/
theorem alarmStopAt_refused (ring : (s.line l).call ≠ .alarmRing) (none' : (s.line l).alarmPending = none) :
    (alarmStopAt l s).1 = s := by simp [alarmStopAt, ring, none']

/-- A pending alarm is withdrawn (R86). -/
theorem alarmStopAt_clears (ring : (s.line l).call ≠ .alarmRing) (pending : (s.line l).alarmPending ≠ none) :
    (alarmStopAt l s).1 = s.updLine l fun x => { x with alarmPending := none } := by
  simp [alarmStopAt, ring, Option.isSome_iff_ne_none.mpr pending]

/-- An alarm that rings ends (R85, R86). -/
theorem alarmStopAt_ends (ring : (s.line l).call = .alarmRing) :
    (alarmStopAt l s).1 = (s.updLine l fun x => { x with alarmPending := none }).endAlarm l := by
  simp [alarmStopAt, ring]

/-- The line of an alarm that ALARM_STOP ends, as its call is about to end: no pending alarm, no entry (R86). -/
def State.alarmStopping (l : LineNo) (s : State) : State :=
  (s.updLine l fun x => { x with alarmPending := none }).removeEntry l

theorem State.alarmStopping_point (l : LineNo) (s : State) : CallPoint l s (s.alarmStopping l) :=
  CallPoint.trans (u := s.updLine l _) (.updLine _ rfl rfl rfl) (.removeEntry l _)

/-- What ALARM_STOP leaves of a line on which an alarm rings (R85, R86, R93). -/
theorem alarmStopAt_ended (ring : (s.line l).call = .alarmRing) :
    let t := (alarmStopAt l s).1
    (t.line l).call = .idle ∧ (t.line l).alarmPending = none ∧ t.row l = none
      ∧ ∀ r, (s.line l).record = some r →
          s.ends t l r (s.line l).digits .alarmEnd ∧ s.tells t l (some .alarmEnd) := by
  intro t
  have ended : t = (s.alarmStopping l).endCall l .idle .alarmEnd := alarmStopAt_ends ring
  have pending : ((s.alarmStopping l).line l).alarmPending = none := by
    rw [State.alarmStopping, State.line_removeEntry, State.line_updLine, if_pos rfl]
  rw [ended]
  exact ⟨by rw [State.line_endCall], by rw [State.line_endCall, pending],
    by rw [State.row_endCall, State.alarmStopping, State.row_removeEntry],
    fun r => (State.alarmStopping_point l s).ended _ (by rw [ring]; nofun)⟩

end

/-! ### The lines of a set -/

section

variable (w : BitVec 16) (s : State) {f : LineNo → State → State × Status}
  (away : ∀ {l m} u, l ≠ m → Apart l u (f m u).1)

include away

/-- A line of the set is judged between the works of the other lines (R182). -/
theorem forLines_apart_inside {l : LineNo} (mem : w.getLsbD l.val = true) :
    ∃ u, Apart l s u ∧ Apart l (f l u).1 (forLines f (linesIn w) s).1 :=
  forLines_inside Apart.refl Apart.trans away (linesIn_nodup w) ((mem_linesIn w l).mpr mem) s

/-- A line out of the set is left alone (R182). -/
theorem forLines_apart_outside {l : LineNo} (out : w.getLsbD l.val = false) :
    Apart l s (forLines f (linesIn w) s).1 :=
  forLines_outside Apart.refl Apart.trans away (fun mem => nomatch out.symm.trans ((mem_linesIn w l).mp mem)) s

/-- A line of the set that its judging leaves alone is left alone by all of the command (R182). -/
theorem forLines_apart_rests {l : LineNo}
    (rests : ∀ u, u.line l = s.line l → (f l u).1 = u) : Apart l s (forLines f (linesIn w) s).1 := by
  by_cases mem : w.getLsbD l.val = true
  · obtain ⟨u, before, after⟩ := forLines_apart_inside w s away mem
    rw [rests u before.line] at after
    exact before.trans after
  · exact forLines_apart_outside w s away (Bool.eq_false_iff.mpr mem)

end

/-! ### The commands -/

theorem alarmRing_passes (w : BitVec 16) {n : Nat} (range : 1 ≤ n ∧ n ≤ 255) :
    ∀ k ∈ fieldChecks .alarmRing (toBytes2 w.toNat ++ [toByte n]), k.1 = true :=
  List.forall_mem_singleton.mpr (byteIn_passes_of_toByte rfl (by decide) range)

theorem carryAlarmRing_eq (w : BitVec 16) {n : Nat} (small : n < 256) (s : State) :
    s.carryAlarmRing (toBytes2 w.toNat ++ [toByte n]) =
      ((forLines (alarmRingAt n) (linesIn w) s).1,
        0x00 :: toBytes2 w.toNat ++ (linesIn w).map fun l => (s.line l).alarmOutcome.code) := by
  have frames : byteAt (toBytes2 w.toNat ++ [toByte n]) 2 = n := toByte_toNat small
  have outcomes := forLines_outcomes (fun u => Apart.alarmRingAt n u) (alarmRingAt_snd n)
    (fun near => by rw [near.line]) (linesIn_nodup w) s
  rw [State.carryAlarmRing, frames, forSet_eq, outcomes]

theorem carryAlarmStop_eq (w : BitVec 16) (s : State) : s.carryAlarmStop (toBytes2 w.toNat) =
    ((forLines alarmStopAt (linesIn w) s).1,
      0x00 :: toBytes2 w.toNat ++ (linesIn w).map fun l => (s.line l).stopOutcome.code) := by
  have outcomes := forLines_outcomes (fun u => Apart.alarmStopAt u) alarmStopAt_snd
    (fun near => by rw [near.line]) (linesIn_nodup w) s
  rw [State.carryAlarmStop, ← List.append_nil (toBytes2 w.toNat), forSet_eq, outcomes, List.append_nil]

/-- An alarm that starts among the works of other lines (R84). -/
theorem alarm_started {s u t : State} {l : LineNo} {v : Voice} {n : Nat} (before : Apart l s u)
    (after : Apart l (u.startAlarm l v n) t) (idle : (s.line l).call = .idle) :
    (t.line l).call = .alarmRing ∧ (t.line l).alarmPending = none ∧ (t.line l).alarmCount = n
      ∧ (t.line l).timer = none ∧ (t.line l).track = ⟨0, 0⟩ ∧ s.tells t l none
      ∧ (t.line l).record = some ⟨.alarm, none, none, none, ⟨[], false⟩, s.stamp, none, 0, none, 0, false⟩
      ∧ (t.line l).digits = ⟨[], false⟩ ∧ (t.line l).out = ⟨[], false, false⟩
      ∧ ∃ e, t.row l = some e ∧ e.cls = .alarm ∧ e.reqType = .alarm ∧ e.voiceB = none ∧ e.voiceA = v := by
  have line := after.line
  rw [State.line_startAlarm, State.line_alarmOpened, before.line, before.aside.stamp,
    Line.trackAfter_leaving idle (by decide)] at line
  have told : u.tells (u.startAlarm l v n) l none := State.startAlarm_tells v n (by rw [before.line, idle]; nofun)
  refine ⟨?_, ?_, ?_, ?_, ?_, before.tells after told, ?_, ?_, ?_, ?_⟩
  case refine_9 =>
    rw [after.row]
    exact State.row_startAlarm v n
  all_goals rw [line]
  all_goals rfl

end Sys2Proof.Machine

open Sys2Proof Sys2Proof.Machine

/-- Settles O28: each line of the set is judged in a state that the works of the other lines have led to, and these leave
the line, its row and its reports alone. -/
theorem alarmsStartAndStopLineByLine : Obligations.AlarmsStartAndStopLineByLine := by
  refine ⟨fun tag w n s ready lo hi => ?_, fun tag w s ready => ?_⟩
  · intro dead outcome
    have judged : outcome = fun l => (s.line l).alarmOutcome.code := funext fun l => by
      simp only [outcome, dead, Line.alarmOutcome, State.alarmVoice_none_iff]
      split_ifs <;> rfl
    have ringAway : ∀ {l m} u, l ≠ m → Apart l u (alarmRingAt n m u).1 := fun u => Apart.alarmRingAt n u
    have kept := Kept.forLines (alarmRingAt n) (fun l u => Kept.alarmRingAt n l u) (linesIn w) s
    have command := exec_carried .alarmRing tag _ ready rfl (alarmRing_passes w ⟨lo, hi⟩)
      (carryAlarmRing_eq w (by omega) s)
    simp only [judged]
    refine ⟨_, command, fun l left => ?_, fun l mem pends => ?_, fun l mem starts p pattern => ?_,
      .of_given kept.given, kept.arb, kept.link⟩
    · rcases left with out | refused
      · have rests := forLines_apart_outside w s ringAway out
        exact ⟨rests.line, rests.row⟩
      · have cause := (Line.alarmOutcome_refused _).mp refused
        have rests := forLines_apart_rests w s ringAway fun u same => alarmRingAt_refused (by rwa [same])
        exact ⟨rests.line, rests.row⟩
    · obtain ⟨enabled, voice, busy⟩ := (Line.alarmOutcome_pending _).mp pends
      obtain ⟨v, voice⟩ := Option.ne_none_iff_exists'.mp voice
      obtain ⟨u, before, after⟩ := forLines_apart_inside w s ringAway mem
      rw [← before.line] at enabled voice busy
      rw [alarmRingAt_pends voice enabled busy] at after
      rw [after.line, after.row, State.line_updLine, if_pos rfl, State.row_updLine, before.line, before.row]
      exact ⟨rfl, rfl⟩
    · obtain ⟨voice, idle⟩ := (Line.alarmOutcome_started _).mp starts
      have loaded := (not_or.mp ((State.alarmVoice_none_iff _).not.mp voice)).2
      obtain ⟨u, before, after⟩ := forLines_apart_inside w s ringAway mem
      rw [alarmRingAt_starts (by rw [before.line]; exact State.alarmVoice_some pattern loaded) (by rw [before.line, idle])]
        at after
      exact alarm_started before after idle
  · intro outcome
    have judged : outcome = fun l => (s.line l).stopOutcome.code := funext fun l => by
      simp only [outcome, Line.stopOutcome]
      split_ifs <;> rfl
    have stopAway : ∀ {l m} u, l ≠ m → Apart l u (alarmStopAt m u).1 := fun u => Apart.alarmStopAt u
    have kept := Kept.forLines alarmStopAt (fun l u => Kept.alarmStopAt l u) (linesIn w) s
    have command := exec_carried .alarmStop tag _ ready rfl (List.forall_mem_nil _) (carryAlarmStop_eq w s)
    simp only [judged]
    refine ⟨_, command, fun l left => ?_, fun l mem ring pending => ?_, fun l mem ring => ?_,
      .of_given kept.given, kept.arb, kept.link⟩
    · rcases left with out | refused
      · have rests := forLines_apart_outside w s stopAway out
        exact ⟨rests.line, rests.row⟩
      · have quiet : ¬((s.line l).call = .alarmRing ∨ (s.line l).alarmPending ≠ none) := fun alarm => by
          rw [Line.stopOutcome, if_pos alarm] at refused
          contradiction
        obtain ⟨ring, none'⟩ := not_or.mp quiet
        have rests := forLines_apart_rests w s stopAway fun u same =>
          alarmStopAt_refused (by rwa [same]) (by rw [same]; exact not_not.mp none')
        exact ⟨rests.line, rests.row⟩
    · obtain ⟨u, before, after⟩ := forLines_apart_inside w s stopAway mem
      rw [← before.line] at ring pending
      rw [alarmStopAt_clears ring pending] at after
      rw [after.line, after.row, State.line_updLine, if_pos rfl, State.row_updLine, before.line, before.row]
      exact ⟨rfl, rfl⟩
    · obtain ⟨u, before, after⟩ := forLines_apart_inside w s stopAway mem
      obtain ⟨idle, cleared, removed, ended⟩ := alarmStopAt_ended (s := u) (l := l) (by rw [before.line, ring])
      rw [before.line] at ended
      exact ⟨by rw [after.line, idle], by rw [after.line, cleared], by rw [after.row, removed],
        fun r opened => ⟨before.ends after (ended r opened).1, before.tells after (ended r opened).2⟩⟩
end

section
/-! A lift that is an answer, in TERM_RING (R78) and in ALARM_RING (R85). -/

namespace Sys2Proof.Machine

/-- An exchange request marks STATE and EXCHANGE_REQUEST alone (R63, R73). -/
theorem SameReport.enterExchWait {s : State} {k : ReportKind} {l : LineNo} (notState : k ≠ .state)
    (notRequest : k ≠ .exchangeRequest) : SameReport k l s (s.enterExchWait l) := by
  have entered : SameReport k l s ((s.updLine l fun x => { x with out := OutList.empty }).enter l .exchWait) :=
    SameReport.trans (t := s.updLine l _) (of_link rfl) (.enter _ notState)
  unfold State.enterExchWait
  dsimp only
  split
  · exact entered
  · exact entered.trans (.markLine _ notRequest)

namespace State

variable {s : State} {l : LineNo} {r : Reading}

/-! ### The answer taken -/

/-- The line of an answer with its entry gone and the answer stamp in its record (R78, R85). -/
def answerTaken (l : LineNo) (s : State) : State :=
  (s.removeEntry l).updRecord l fun r => { r with answer := some s.stamp }

theorem answerTaken_kept (l : LineNo) (s : State) : Kept s (s.answerTaken l) :=
  (Kept.removeEntry l).trans (Kept.updRecord l _)

theorem answerTaken_link (l : LineNo) (s : State) : (s.answerTaken l).link = s.link := removeEntry_link l s

theorem line_answerTaken (l : LineNo) (s : State) : (s.answerTaken l).line l = { s.line l with
    play := if s.row l = none then (s.line l).play else none
    record := (s.line l).record.map fun r => { r with answer := some s.stamp } } := by
  rw [answerTaken, line_updRecord, line_removeEntry]

theorem row_answerTaken (l : LineNo) (s : State) : (s.answerTaken l).row l = none := row_removeEntry l s

/-- The line of an alarm's answer, its hook machine moved by a ring trip (R85). -/
def alarmTaken (l : LineNo) (s : State) : Manner → State
  | .trip => (s.answerTaken l).updLine l fun x => { x with hook := Hook.offhookClear }
  | .silent => s.answerTaken l

theorem alarmTaken_kept (l : LineNo) (m : Manner) (s : State) : Kept s (s.alarmTaken l m) := by
  cases m
  · exact (answerTaken_kept l s).trans (Kept.updLine l (fun x => { x with hook := Hook.offhookClear }) rfl)
  · exact answerTaken_kept l s

theorem alarmTaken_link (l : LineNo) (m : Manner) (s : State) : (s.alarmTaken l m).link = s.link := by
  cases m <;> exact answerTaken_link l s

theorem line_alarmTaken (l : LineNo) (m : Manner) (s : State) : (s.alarmTaken l m).line l = { s.line l with
    play := if s.row l = none then (s.line l).play else none
    record := (s.line l).record.map fun r => { r with answer := some s.stamp }
    hook := liftedHook (s.line l).hook m } := by
  cases m
  · rw [alarmTaken, line_updLine, if_pos rfl, line_answerTaken]
    rfl
  · exact line_answerTaken l s

theorem row_alarmTaken (l : LineNo) (m : Manner) (s : State) : (s.alarmTaken l m).row l = none := by
  cases m <;> exact row_answerTaken l s

/-! ### TERM_RING -/

theorem answer_eq (l : LineNo) (m : Manner) (s : State) :
    s.answer l m = ((s.answerTaken l).markAnswer l m).enter l .exchange := rfl

/-- The line of an answered terminating call (R78). -/
theorem line_answer (l : LineNo) (m : Manner) (s : State) : (s.answer l m).line l = { s.line l with
    play := if s.row l = none then (s.line l).play else none
    record := (s.line l).record.map fun r => { r with answer := some s.stamp }
    call := .exchange, timer := none, dialBegun := false, track := (s.line l).trackAfter .exchange } := by
  rw [answer_eq, line_enter, line_markAnswer, line_answerTaken]
  rfl

theorem row_answer (l : LineNo) (m : Manner) (s : State) : (s.answer l m).row l = none := by
  rw [answer_eq, row_enter, row_markAnswer, row_answerTaken]

theorem answer_tells (m : Manner) (away : (s.line l).call ≠ .exchange) : s.tells (s.answer l m) l none := by
  have kept : Kept s ((s.answerTaken l).markAnswer l m) := (answerTaken_kept l s).trans (Kept.markAnswer l m)
  have call : (((s.answerTaken l).markAnswer l m).line l).call = (s.line l).call := by
    rw [line_markAnswer, line_answerTaken]
  rw [answer_eq]
  exact tells_of_before (enter_tells (by rwa [call])) kept.stamp kept.mask call

/-- The ANSWER report of a record that has just been answered (R78, R85). -/
theorem answered_marked {u : State} {rec : Record} (m : Manner)
    (answered : (u.line l).record = some { rec with answer := some s.stamp }) (stamp : u.stamp = s.stamp)
    (link : u.link = s.link) : (u.markAnswer l m).marked s.link.mask .answer l
      ([lineByte l, rec.kind.code, slotByte rec.called, m.code] ++ stampBytes s.stamp) := by
  have marked := markAnswer_marked m answered
  rwa [stamp, link] at marked

theorem answer_marked {rec : Record} (m : Manner) (opened : (s.line l).record = some rec) :
    (s.answer l m).marked s.link.mask .answer l
      ([lineByte l, rec.kind.code, slotByte rec.called, m.code] ++ stampBytes s.stamp) := by
  have marked := answered_marked (s := s) (u := s.answerTaken l) m (by rw [line_answerTaken, opened]; rfl)
    (answerTaken_kept l s).stamp (answerTaken_link l s)
  exact (SameReport.enter .exchange (by decide)).marked marked

/-! ### ALARM_RING -/

theorem alarmAnswer_eq (l : LineNo) (m : Manner) (s : State) :
    s.alarmAnswer l m = ((s.alarmTaken l m).markAnswer l m).enterExchWait l := by cases m <;> rfl

/-- The line of an answered alarm (R73, R85). -/
theorem line_alarmAnswer (l : LineNo) (m : Manner) (s : State) : (s.alarmAnswer l m).line l = { s.line l with
    play := if s.row l = none then (s.line l).play else none
    record := (s.line l).record.map fun r => { r with answer := some s.stamp }
    hook := liftedHook (s.line l).hook m, out := OutList.empty, call := .exchWait
    timer := some (s.settings.exchangeWait * 10), dialBegun := false, track := (s.line l).trackAfter .exchWait } := by
  have kept : Kept s ((s.alarmTaken l m).markAnswer l m) := (alarmTaken_kept l m s).trans (Kept.markAnswer l m)
  rw [alarmAnswer_eq, line_enterExchWait, kept.settings, line_markAnswer, line_alarmTaken]
  rfl

theorem row_enterExchWait (l m : LineNo) (s : State) : (s.enterExchWait l).row m = s.row m := by
  unfold enterExchWait
  dsimp only
  split <;> simp

theorem row_alarmAnswer (l : LineNo) (m : Manner) (s : State) : (s.alarmAnswer l m).row l = none := by
  rw [alarmAnswer_eq, row_enterExchWait, row_markAnswer, row_alarmTaken]

theorem alarmAnswer_tells (m : Manner) (away : (s.line l).call ≠ .exchWait) : s.tells (s.alarmAnswer l m) l none := by
  have kept : Kept s ((s.alarmTaken l m).markAnswer l m) := (alarmTaken_kept l m s).trans (Kept.markAnswer l m)
  have call : (((s.alarmTaken l m).markAnswer l m).line l).call = (s.line l).call := by
    rw [line_markAnswer, line_alarmTaken]
  rw [alarmAnswer_eq]
  exact tells_of_before (enterExchWait_tells (by rwa [call])) kept.stamp kept.mask call

theorem alarmAnswer_marked {rec : Record} (m : Manner) (opened : (s.line l).record = some rec) :
    (s.alarmAnswer l m).marked s.link.mask .answer l
      ([lineByte l, rec.kind.code, slotByte rec.called, m.code] ++ stampBytes s.stamp) := by
  have marked := answered_marked (s := s) (u := s.alarmTaken l m) m (by rw [line_alarmTaken, opened]; rfl)
    (alarmTaken_kept l m s).stamp (alarmTaken_link l m s)
  rw [alarmAnswer_eq]
  exact (SameReport.enterExchWait (by decide) (by decide)).marked marked

/-- The exchange request of an answered alarm (R73, R85). -/
theorem alarmAnswer_requests {rec : Record} (m : Manner) (opened : (s.line l).record = some rec) :
    (s.alarmAnswer l m).marked s.link.mask .exchangeRequest l
      ([lineByte l, rec.kind.code, slotByte rec.caller] ++ digitList (s.line l).digits.digits) := by
  have kept : Kept s ((s.alarmTaken l m).markAnswer l m) := (alarmTaken_kept l m s).trans (Kept.markAnswer l m)
  have line : ((s.alarmTaken l m).markAnswer l m).line l = (s.alarmTaken l m).line l := line_markAnswer _ _ _ _
  have marked := enterExchWait_marked (s := (s.alarmTaken l m).markAnswer l m) (l := l)
    (rec := { rec with answer := some s.stamp }) (by rw [line, line_alarmTaken, opened]; rfl)
  rw [kept.mask, line, line_alarmTaken] at marked
  rw [alarmAnswer_eq]
  exact marked

/-! ### A ring trip in TERM_RING -/

/-- A ring trip that answers a terminating call leaves the hook machine held (R78). -/
theorem scanLine_tripAnswer_hook (h : s.trips l r) (ring : (s.line l).call = .termRing) :
    ((s.scanLine l r).line l).hook = (s.line l).hook := by
  obtain ⟨_, fitted, present, testing, met, p, d, play, drive, inrush, trip⟩ := h
  let v := (s.countScan l).updLine l fun x => { x with play := some p.tripped }
  have vcall : (v.line l).call = .termRing := by rw [line_updLine, if_pos rfl, line_countScan, ring]
  have lift : v.lift l .trip = v.answer l .trip := by rw [lift, vcall]
  have loop : (s.countScan l).loopScan l r = v.answer l .trip := by
    rw [← lift]
    simp [v, loopScan, ringScan, Play.judge, Line.tripMet, testing, play, drive, inrush, trip, met]
  have answered : SameHook l v (v.answer l .trip) := by
    unfold SameHook
    rw [line_answer]
  have held : SameHook l s v := by simp [SameHook, v]
  rw [scanLine_fitted fitted present, fittedScan, loop]
  exact held.trans (answered.trans ((SameHook.trackScan _ _).trans (SameHook.leakScan _)))

end State

end Sys2Proof.Machine

open Sys2Proof Sys2Proof.Machine

/-- Settles O34: the answers of the two states, from the point at which the call controller takes the lift. -/
theorem liftAnswersRinging : Obligations.LiftAnswersRinging := by
  refine fun l r m i s rec lifted opened run => ⟨fun ring => ?_, fun alarm => ?_⟩
  · obtain ⟨found, only, v, point, scan⟩ := State.scan_lifted lifted (by rw [ring]; nofun)
    have lift : v.lift l m = v.answer l m := by rw [State.lift, point.call, ring]
    have vopened : (v.line l).record = some rec := by rw [point.line, opened]
    have line := State.line_answer l m v
    rw [lift, line, point.run, run] at scan
    have stands : CallStands l (v.answer l m) (s.scanLine l r) := scan rfl ▸ .withTrack _ _ _
    have told := State.answer_tells (s := v) (l := l) m (by rw [point.call, ring]; nofun)
    have marked := State.answer_marked m vopened
    rw [point.link, point.stamp] at marked
    rw [vopened, point.stamp] at line
    refine ⟨s.scanLine l r, found, only, by rw [stands.row, State.row_answer], by rw [stands.line, line],
      stands.tells (State.tells_of_before told point.stamp (by rw [point.link]) point.call), by rw [stands.line, line],
      by rw [stands.line, line]; rfl, ?_, stands.marked marked (by decide)⟩
    rintro rfl
    rcases lifted with ⟨silent, _⟩ | ⟨_, trips, _⟩
    · nomatch silent
    · exact State.scanLine_tripAnswer_hook trips ring
  · obtain ⟨found, only, v, point, scan⟩ := State.scan_lifted lifted (by rw [alarm]; nofun)
    have lift : v.lift l m = v.alarmAnswer l m := by rw [State.lift, point.call, alarm]
    have vopened : (v.line l).record = some rec := by rw [point.line, opened]
    have line := State.line_alarmAnswer l m v
    rw [lift, line, point.run, run] at scan
    have stands : CallStands l (v.alarmAnswer l m) (s.scanLine l r) := scan rfl ▸ .withTrack _ _ _
    have told := State.alarmAnswer_tells (s := v) (l := l) m (by rw [point.call, alarm]; nofun)
    have marked := State.alarmAnswer_marked m vopened
    have requested := State.alarmAnswer_requests m vopened
    have vdigits : (v.line l).digits = (s.line l).digits := by rw [point.line]
    rw [point.link, point.stamp] at marked
    rw [point.link, vdigits] at requested
    rw [vopened, point.stamp, point.settings] at line
    refine ⟨s.scanLine l r, found, only, by rw [stands.row, State.row_alarmAnswer], by rw [stands.line, line],
      stands.tells (State.tells_of_before told point.stamp (by rw [point.link]) point.call), by rw [stands.line, line],
      by rw [stands.line, line]; rfl, by rw [stands.line, line]; rfl, ?_, stands.marked marked (by decide),
      stands.marked requested (by decide)⟩
    rintro rfl
    rw [stands.line, line]
    rfl
end

section
/-! The on-hook event (R46): what the call controller does with it, state by state (R64, R106), and the tracking scan that may
follow it at the same scan (R56 to R58). -/

namespace Sys2Proof.Machine

/-- A written baseline marks LINE_FAULT alone (R58). -/
theorem SameReport.writeBaseline {s : State} {k : ReportKind} {l : LineNo} (b : Nat) (other : k ≠ .lineFault) :
    SameReport k l s (s.writeBaseline l b) := by
  unfold State.writeBaseline
  dsimp only
  split
  · exact .of_link rfl
  · exact SameReport.trans (t := s.updLine l _) (.of_link rfl) (.markLine _ other)

/-- The leakage part of a scan marks LINE_FAULT alone (R56 to R58). -/
theorem SameReport.trackScan {s : State} {k : ReportKind} {l : LineNo} (judged : Bool) (reading : Nat)
    (other : k ≠ .lineFault) : SameReport k l s (s.trackScan l judged reading) := by
  unfold State.trackScan
  dsimp only
  split
  · split
    · exact .of_link rfl
    · exact SameReport.trans (t := s.updLine l _) (.of_link rfl) (.writeBaseline _ other)
  · exact .of_link rfl

namespace State

variable {s c : State} {l : LineNo} {r : Reading}

/-! ### What the tracking scan leaves of an event's reports -/

theorem trackScan_tells {cause : Option EndCause} (judged : Bool) (reading : Nat) (told : s.tells c l cause) :
    s.tells (c.trackScan l judged reading) l cause := by
  unfold tells
  rw [line_trackScan]
  exact (SameReport.trackScan judged reading (by decide)).marked told

theorem trackScan_ends {rec : Record} {ds : DigitBuffer} {cause : EndCause} (judged : Bool) (reading : Nat)
    (ended : s.ends c l rec ds cause) : s.ends (c.trackScan l judged reading) l rec ds cause := by
  obtain ⟨record, completed, marked⟩ := ended
  exact ⟨by rw [line_trackScan, record], by rw [line_trackScan, completed],
    (SameReport.trackScan judged reading (by decide)).marked marked⟩

/-! ### The call controller -/

theorem callOnHook_abandons (h : (s.line l).call = .dial ∨ (s.line l).call = .exchWait) :
    s.callOnHook l = s.endCall l .idle .abandoned := by
  rcases h with call | call <;> simp only [callOnHook, call]

theorem callOnHook_ends (h : (s.line l).call = .exchange ∨ (s.line l).call = .revertTalk) :
    s.callOnHook l = s.endCall l .idle .normal := by
  rcases h with call | call <;> simp only [callOnHook, call]

theorem callOnHook_rests (h : (s.line l).call = .reorder ∨ (s.line l).call = .lockout) :
    s.callOnHook l = s.enter l .idle := by
  rcases h with call | call <;> simp only [callOnHook, call]

theorem callOnHook_reverts (h : (s.line l).call = .revertTone) : s.callOnHook l = s.revertHangup l := by
  simp only [callOnHook, h]

/-- The states that wait for something else than the hook (R64, R81, R82, R114). -/
theorem callOnHook_ignored (h : (s.line l).call = .idle ∨ (s.line l).call = .ident ∨ (s.line l).call = .termRing
    ∨ (s.line l).call = .revertRing ∨ (s.line l).call = .revertCheck ∨ (s.line l).call = .alarmRing) :
    s.callOnHook l = s := by
  rcases h with call | call | call | call | call | call <;> simp only [callOnHook, call]

/-! ### A hangup in REVERT_TONE -/

/-- The voice with which a party of the line is rung in a reverting call: none if its channel carries no load (R106). -/
def revertVoice (x : Line) (j : Slot) : Option Voice :=
  if x.loads.get (x.active.entries.get j).channel = 0 then none else some (x.partyVoice (x.active.entries.get j))

theorem calledVoice_eq {x : Line} {rec : Record} {j : Slot} (opened : x.record = some rec) (called : rec.called = some j) :
    x.calledVoice = revertVoice x j := by
  simp only [Line.calledVoice, Line.called, opened, called, revertVoice]

theorem callerVoice_eq {x : Line} {rec : Record} (opened : x.record = some rec) :
    x.callerVoice = rec.caller.bind (revertVoice x) := by
  cases caller : rec.caller <;> simp [Line.callerVoice, Line.caller, opened, caller, revertVoice]

theorem revertHangup_unloaded (h : (s.line l).calledVoice = none) : s.revertHangup l = s.endCall l .idle .noLoad := by
  simp only [revertHangup, h]

theorem revertHangup_rings {a : Voice} (h : (s.line l).calledVoice = some a) : s.revertHangup l =
    (s.enter l .revertRing).request l (Entry.new .ordinary .revert a (s.line l).callerVoice) := by
  simp only [revertHangup, h]

theorem line_revertHangup_rings {a : Voice} (h : (s.line l).calledVoice = some a) :
    (s.revertHangup l).line l = (s.enter l .revertRing).line l := by
  rw [revertHangup_rings h, line_request (show RequestType.revert ≠ .test by decide)]

theorem revertHangup_tells {a : Voice} (h : (s.line l).calledVoice = some a) (away : (s.line l).call ≠ .revertRing) :
    s.tells (s.revertHangup l) l none := by
  rw [revertHangup_rings h]
  exact request_tells (enter_tells away) (show RequestType.revert ≠ .test by decide)

theorem row_revertHangup {a : Voice} (h : (s.line l).calledVoice = some a) :
    ∃ e, (s.revertHangup l).row l = some e ∧ e.cls = .ordinary ∧ e.reqType = .revert ∧ e.voiceA = a
      ∧ e.voiceB = (s.line l).callerVoice := by
  rw [revertHangup_rings h]
  obtain ⟨e, entry, cls, typ, voiceA, voiceB, _⟩ :=
    row_request_new .ordinary .revert a (s.line l).callerVoice l (s.enter l .revertRing)
  exact ⟨e, entry, cls, typ, voiceA, voiceB⟩

theorem callOnHook_run (l : LineNo) (s : State) : ((s.callOnHook l).line l).run = (s.line l).run := by
  have revert : ((s.revertHangup l).line l).run = (s.line l).run := by
    cases voice : (s.line l).calledVoice with
    | none => rw [revertHangup_unloaded voice, line_endCall]
    | some a => rw [line_revertHangup_rings voice, line_enter]
  unfold callOnHook
  cases (s.line l).call
  case dial | exchWait | exchange | revertTalk => simp only [line_endCall]
  case reorder | lockout => simp only [line_enter]
  case revertTone => exact revert
  all_goals rfl

/-! ### The scan -/

/-- The ninetieth break scan (R46). -/
theorem hookMove_hangsUp (h : s.hangsUp l r) : (s.line l).hookMove r = (⟨.onhook, 0, 0, 0, 0⟩, [.onHook]) := by
  obtain ⟨_, breaks, st, last⟩ := h
  simp only [Line.hookMove, Bool.eq_false_iff.mpr (makeScan_iff.not.mpr breaks)]
  exact Hook.scan_break_ends _ st last

/-- The scan that gives the on-hook event is the one that ON_HOOK names (R46; log 4). -/
theorem exec_onHook {i : Instr} (h : s.hangsUp l r) (row : i = .onHook l r ∨ i = .scan l r) :
    exec i s = .next (s.scanLine l r).settleLink := by
  have move := hookMove_hangsUp h
  obtain ⟨watched, _⟩ := h
  rcases row with rfl | rfl
  · refine scanning_found (finds := fun u => ((u.line l).itemsAt r).contains .onHook) watched.1 ?_
    simp [itemsAt_watched watched, move]
  · exact exec_scan watched.1

/-- The state of an on-hook scan as the call controller takes the event (R46, R49). -/
def hungUp (l : LineNo) (s : State) : State := s.hookMoved l ⟨.onhook, 0, 0, 0, 0⟩

theorem hungUp_point (l : LineNo) (s : State) : CallPoint l s (s.hungUp l) := .hookMoved l _ s

theorem line_hungUp (l : LineNo) (s : State) :
    (s.hungUp l).line l = { s.line l with hook := ⟨.onhook, 0, 0, 0, 0⟩ } := line_hookMoved l _ s

theorem row_hungUp (l m : LineNo) (s : State) : (s.hungUp l).row m = s.row m := row_hookMoved l m _ s

/-- The on-hook scan of a line without a run: the event taken, and then, if it leaves the line in IDLE, its first tracking
scan (R41, R56). -/
theorem scanLine_hangsUp (h : s.hangsUp l r) (run : (s.line l).run = none) :
    s.scanLine l r = ((s.hungUp l).callOnHook l).trackScan l true r.loop := by
  have move := hookMove_hangsUp h
  obtain ⟨watched, _⟩ := h
  have moved := loopScan_watched watched
  have awake := watched_suspended watched
  obtain ⟨_, fitted, present, _⟩ := watched
  rw [move] at moved
  rw [scanLine_fitted fitted present, fittedScan, moved, line_countScan, awake, leakScan_of_none]
  · rfl
  · rw [line_trackScan]
    exact (callOnHook_run l (s.hungUp l)).trans (by rw [line_hungUp, run])

/-- A call that the event ends in IDLE, with its record and its report (R63, R93). -/
theorem scanLine_hangsUp_ends {cause : EndCause} (h : s.hangsUp l r) (run : (s.line l).run = none)
    (away : (s.line l).call ≠ .idle) (taken : (s.hungUp l).callOnHook l = (s.hungUp l).endCall l .idle cause) :
    ((s.scanLine l r).line l).call = .idle ∧ ((s.scanLine l r).line l).timer = none
      ∧ ∀ rec, (s.line l).record = some rec → s.ends (s.scanLine l r) l rec (s.line l).digits cause
          ∧ s.tells (s.scanLine l r) l (some cause) := by
  rw [scanLine_hangsUp h run, taken, line_trackScan, line_endCall]
  refine ⟨rfl, rfl, fun rec opened => ?_⟩
  obtain ⟨ended, told⟩ := (hungUp_point l s).ended cause away opened
  exact ⟨trackScan_ends _ _ ended, trackScan_tells _ _ told⟩

end State

end Sys2Proof.Machine

open Sys2Proof Sys2Proof.Machine

/-- Settles O35: what the call controller does with the event, from the moved hook machine, stands through the tracking scan. -/
theorem onHookEndsTheCall : Obligations.OnHookEndsTheCall := by
  intro l r i s hangsUp row run
  have point := s.hungUp_point l
  have hook := State.scanLine_hook hangsUp.1
  have scan := State.scanLine_hangsUp hangsUp run
  have ends {c : EndCause} := State.scanLine_hangsUp_ends (cause := c) hangsUp run
  rw [State.hookMove_hangsUp hangsUp] at hook
  obtain ⟨⟨_, fitted, present, _⟩, _⟩ := id hangsUp
  refine ⟨s.scanLine l r, State.exec_onHook hangsUp row, State.scanLine_onlyLine fitted present, hook, fun call => ?_,
    fun call => ?_, fun call => ?_, fun call rec j opened called => ⟨fun unloaded => ?_, fun loaded => ?_⟩, fun call => ?_⟩
  · have away : (s.line l).call ≠ .idle := by rcases call with call | call <;> rw [call] <;> nofun
    exact ends away (State.callOnHook_abandons (by rwa [point.call]))
  · have away : (s.line l).call ≠ .idle := by rcases call with call | call <;> rw [call] <;> nofun
    obtain ⟨idle, _, rest⟩ := ends away (State.callOnHook_ends (by rwa [point.call]))
    exact ⟨idle, rest⟩
  · have away : (s.line l).call ≠ .idle := by rcases call with call | call <;> rw [call] <;> nofun
    have told := State.trackScan_tells true r.loop (point.enter_tells away)
    rw [scan, State.callOnHook_rests (by rwa [point.call]), State.line_trackScan, State.line_enter]
    exact ⟨rfl, rfl, told⟩
  · have silent : ((s.hungUp l).line l).calledVoice = none := by
      rw [State.calledVoice_eq (point.record.trans opened) called, State.line_hungUp, State.revertVoice, if_pos unloaded]
    have taken := (State.callOnHook_reverts (point.call.trans call)).trans (State.revertHangup_unloaded silent)
    obtain ⟨idle, _, rest⟩ := ends (by rw [call]; nofun) taken
    exact ⟨idle, rest rec opened⟩
  · let a := (s.line l).partyVoice ((s.line l).active.entries.get j)
    have voice : ((s.hungUp l).line l).calledVoice = some a := by
      rw [State.calledVoice_eq (point.record.trans opened) called, State.line_hungUp, State.revertVoice, if_neg loaded]
      rfl
    have told := State.tells_of_before (State.revertHangup_tells voice (by rw [point.call, call]; nofun)) point.stamp
      point.mask point.call
    obtain ⟨e, entry, cls, typ, voiceA, voiceB⟩ := State.row_revertHangup voice
    rw [State.callerVoice_eq (point.record.trans opened), State.line_hungUp] at voiceB
    rw [scan, State.callOnHook_reverts (point.call.trans call), State.line_trackScan, State.row_trackScan,
      State.line_revertHangup_rings voice, State.line_enter]
    refine ⟨rfl, State.trackScan_tells _ _ told, by rw [point.settings]; rfl, point.record.trans opened, e, entry, cls, typ,
      voiceA, ?_⟩
    rw [voiceB]
    cases rec.caller <;> rfl
  · rw [scan, State.callOnHook_ignored (by rwa [point.call]), State.line_trackScan, State.row_trackScan, State.row_hungUp]
    exact ⟨point.call, point.record, rfl⟩
end

section
/-! The call timer (R67): its count, its stop, and the expiry by the call state. -/

namespace Sys2Proof.Machine.State

variable {s : State} {l : LineNo}

/-- A count that is not at its end falls by 1 (R67). -/
theorem callTimerStep_counts {n : Nat} (timer : (s.line l).timer = some n) (more : 2 ≤ n) :
    s.callTimerStep l = s.setLine l { s.line l with timer := some (n - 1) } := by
  have running : ¬n ≤ 1 := by omega
  simp only [callTimerStep, timer, if_neg running]
  rfl

/-- The line with its call timer stopped, as the expiry finds it (R67). -/
def timerStopped (l : LineNo) (s : State) : State := s.updLine l fun x => { x with timer := none }

theorem callTimerStep_expires (timer : (s.line l).timer = some 1) : s.callTimerStep l = (s.timerStopped l).expiry l := by
  simp only [callTimerStep, timer, if_pos (Nat.le_refl 1)]
  rfl

theorem timerStopped_point (l : LineNo) (s : State) : CallPoint l s (s.timerStopped l) := .updLine _ rfl rfl rfl

theorem row_timerStopped (l m : LineNo) (s : State) : (s.timerStopped l).row m = s.row m := rfl

/-- The expiries that end the call in REORDER, each with its cause (R72, R74, R105). -/
theorem expiry_reorders {c : EndCause} (h : ((s.line l).call = .dial ∧ c = .abandoned)
    ∨ ((s.line l).call = .exchWait ∧ c = .noExchange) ∨ ((s.line l).call = .revertTone ∧ c = .noHangup)) :
    s.expiry l = s.endCall l .reorder c := by
  rcases h with ⟨call, rfl⟩ | ⟨call, rfl⟩ | ⟨call, rfl⟩ <;> simp only [expiry, call]

/-- Nobody answered (R79, R109). -/
theorem expiry_unanswered (h : (s.line l).call = .termRing ∨ (s.line l).call = .revertRing) :
    s.expiry l = (s.removeEntry l).endCall l .idle .noAnswer := by
  rcases h with call | call <;> simp only [expiry, call]

theorem expiry_locksOut (h : (s.line l).call = .reorder) : s.expiry l = s.enter l .lockout := by
  simp only [expiry, h]

end Sys2Proof.Machine.State

open Sys2Proof Sys2Proof.Machine

/-- Settles O43: the count, and for a held work the expiry of the stopped timer by the call state. -/
theorem callTimerExpiresByState : Obligations.CallTimerExpiresByState := by
  refine ⟨fun l n s => State.callTimerStep_counts, ?_⟩
  intro l s due timer x
  let u : State := { s with due := s.due.erase (.callTimer l) }
  let v : State := u.timerStopped l
  have found : (x.timer == some 1) = true := by simp [x, timer]
  have step : u.callTimerStep l = v.expiry l := State.callTimerStep_expires timer
  have point : CallPoint l s v := (CallPoint.withDue _).trans (u.timerStopped_point l)
  have vrow : v.row l = s.row l := State.row_timerStopped l l u
  refine ⟨u.callTimerStep l, State.occurring_due due found,
    State.OnlyLine.of_due (Kept.callTimerStep l) (Local.callTimerStep l), rfl, State.doWork_due (.callTimer l) u,
    fun cause ends => ?_, fun rung => ?_, fun reorder => ?_⟩
  · have away : (s.line l).call ≠ .reorder := by
      rcases ends with ⟨call, _⟩ | ⟨call, _⟩ | ⟨call, _⟩ <;> rw [show (s.line l).call = _ from call] <;> nofun
    rw [step, State.expiry_reorders (by rwa [point.call])]
    exact ⟨by rw [State.line_endCall], point.endCall_timer _ _, by rw [State.row_endCall, vrow],
      fun r => point.ended cause away⟩
  · have away : (s.line l).call ≠ .idle := by
      rcases rung with call | call <;> rw [show (s.line l).call = _ from call] <;> nofun
    have removed : CallPoint l s (v.removeEntry l) := point.trans (.removeEntry l v)
    rw [step, State.expiry_unanswered (by rwa [point.call])]
    exact ⟨by rw [State.line_endCall], removed.endCall_timer _ _, by rw [State.row_endCall, State.row_removeEntry],
      fun r => removed.ended .noAnswer away⟩
  · have call : (s.line l).call = .reorder := reorder
    rw [step, State.expiry_locksOut (by rw [point.call, call])]
    exact ⟨by rw [State.line_enter], by rw [State.line_enter]; rfl, point.enter_tells (by rw [call]; nofun)⟩
end

section
/-! DIALPLAN_WRITE: what its payload reads back as (R98, R198). -/

namespace Sys2Proof.Machine

@[simp] theorem Action.ofCode_code (a : Action) : Action.ofCode a.code = a := by cases a <;> rfl

theorem Action.code_le (a : Action) : a.code ≤ 3 := by cases a <;> decide

@[simp] theorem ofNat_digit (d : Digit) : Fin.ofNat 10 d.val = d := Fin.ext (Nat.mod_eq_of_lt d.isLt)

theorem nibbles_toByte {a b : Nat} (ha : a ≤ 15) (hb : b ≤ 15) :
    [(toByte (a * 16 + b)).toNat / 16, (toByte (a * 16 + b)).toNat % 16] = [a, b] := by
  rw [toByte_toNat (by omega)]
  congr 2 <;> omega

/-- The first byte of a dial plan entry: ENABLED, the action and the number of its digits (R198). -/
def DialEntry.head (e : DialEntry) : Nat := (if e.enabled then 128 else 0) + e.action.code * 16 + e.pre.length

/-- The payload of DIALPLAN_WRITE, the digit places beyond its own filled up from a list (R198). -/
def DialEntry.payload (e : DialEntry) (i : Fin 12) (pad : List Nat) : List Byte :=
  toByte i.val :: toByte e.head :: toByte e.tail :: packNibbles ((e.pre.map fun (d : Digit) => d.val) ++ pad)

namespace DialEntry

variable {e : DialEntry} {i : Fin 12} {pad : List Nat}

/-- The fields of the first byte, its bits 6 and 3 clear (R198). -/
theorem head_reads (short : e.pre.length ≤ 4) :
    (toByte e.head).toNat.testBit 7 = e.enabled ∧ (toByte e.head).toNat.testBit 6 = false
      ∧ (toByte e.head).toNat.testBit 3 = false ∧ (toByte e.head).toNat % 8 = e.pre.length
      ∧ (toByte e.head).toNat / 16 % 4 = e.action.code := by
  have code := e.action.code_le
  have read : (toByte e.head).toNat = (if e.enabled then 128 else 0) + e.action.code * 16 + e.pre.length :=
    toByte_toNat (by unfold head; split <;> omega)
  rw [read]
  simp only [Nat.testBit_eq_decide_div_mod_eq]
  cases e.enabled with
  | false => simp; omega
  | true => simp; omega

section

variable (places : e.pre.length + pad.length = 4) (nibbles : ∀ d ∈ pad, d ≤ 15)

include places

theorem payload_length : (e.payload i pad).length = 5 := by
  have four : ((e.pre.map fun (d : Digit) => d.val) ++ pad).length = 4 := by simpa using places
  obtain ⟨a, b, c, d, packed⟩ := List.length_eq_four.mp four
  rw [payload, packed]
  rfl

theorem payload_prefixLen : prefixLenAt (e.payload i pad) 1 = e.pre.length := by
  obtain ⟨_, _, _, len, _⟩ := head_reads (e := e) (by omega)
  exact len

theorem payload_action : Action.ofCode (actionCodeAt (e.payload i pad) 1) = e.action := by
  obtain ⟨_, _, _, _, code⟩ := head_reads (e := e) (by omega)
  exact (congrArg Action.ofCode code).trans (Action.ofCode_code _)

include nibbles

/-- The four places read back are the entry's digits and what fills them up (R192, R198). -/
theorem payload_places : nibblesAt (e.payload i pad) 3 ++ nibblesAt (e.payload i pad) 4 =
    (e.pre.map fun (d : Digit) => d.val) ++ pad := by
  have four : ((e.pre.map fun (d : Digit) => d.val) ++ pad).length = 4 := by simpa using places
  have small : ∀ n ∈ (e.pre.map fun (d : Digit) => d.val) ++ pad, n ≤ 15 := by
    intro n held
    rcases List.mem_append.mp held with digit | padding
    · obtain ⟨d, _, rfl⟩ := List.mem_map.mp digit
      omega
    · exact nibbles n padding
  unfold payload
  generalize (e.pre.map fun (d : Digit) => d.val) ++ pad = ds at four small ⊢
  obtain ⟨a, b, c, d, rfl⟩ := List.length_eq_four.mp four
  simp only [List.forall_mem_cons] at small
  obtain ⟨ha, hb, hc, hd, _⟩ := small
  exact congrArg₂ (· ++ ·) (nibbles_toByte ha hb) (nibbles_toByte hc hd)

/-- The places beyond the entry's digits are disregarded (R198). -/
theorem payload_prefix : (nibblesAt (e.payload i pad) 3 ++ nibblesAt (e.payload i pad) 4).take e.pre.length =
    e.pre.map fun (d : Digit) => d.val := by
  rw [payload_places places nibbles, List.take_left' (List.length_map _)]

variable (tail : e.tail ≤ 4)

include tail

/-- An entry written reads back (R198). -/
theorem dialEntryAt_payload : dialEntryAt (e.payload i pad) 1 = e := by
  obtain ⟨enabled, _⟩ := head_reads (e := e) (by omega)
  have pre : (e.pre.map fun (d : Digit) => d.val).map (Fin.ofNat 10) = e.pre := by
    rw [List.map_map]
    exact List.map_id'' ofNat_digit _
  calc dialEntryAt (e.payload i pad) 1
      = ⟨(toByte e.head).toNat.testBit 7,
          ((nibblesAt (e.payload i pad) 3 ++ nibblesAt (e.payload i pad) 4).take
            (prefixLenAt (e.payload i pad) 1)).map (Fin.ofNat 10),
          (toByte e.tail).toNat, Action.ofCode (actionCodeAt (e.payload i pad) 1)⟩ := rfl
    _ = e := by
      rw [enabled, payload_prefixLen places, payload_prefix places nibbles, pre, toByte_toNat (by omega),
        payload_action places]

/-- The payload of a valid entry passes its checks (R98, R198). -/
theorem payload_passes (least : 1 ≤ e.pre.length + e.tail) (most : e.pre.length + e.tail ≤ 8)
    (party : e.action = .revertParty → e.tail = 1) (suffix : e.action = .revertSuffix → e.tail = 3) :
    ∀ k ∈ fieldChecks .dialplanWrite (e.payload i pad), k.1 = true := by
  have short : e.pre.length ≤ 4 := by omega
  obtain ⟨_, bit6, bit3, _⟩ := head_reads short
  have head : byteAt (e.payload i pad) 1 = (toByte e.head).toNat := rfl
  have tailRead : byteAt (e.payload i pad) 2 = e.tail := toByte_toNat (by omega)
  have digits : ∀ d ∈ e.pre, d.val ≤ 9 := fun d _ => by omega
  simp only [fieldChecks, dialplanChecks, List.forall_mem_cons, payload_prefixLen places, payload_prefix places nibbles,
    payload_action places, head, bit6, bit3, tailRead]
  refine ⟨byteIn_passes_of_toByte rfl (by decide) (by omega), by simpa using short,
    byteIn_passes_of_toByte rfl (by decide) ⟨Nat.zero_le _, tail⟩, by simpa using digits, by simp [within, least, most],
    ?_, ?_, List.forall_mem_nil _⟩
  · by_cases named : e.action = .revertParty
    · simp [party named]
    · simp [named]
  · by_cases named : e.action = .revertSuffix
    · simp [suffix named]
    · simp [named]

/-- The entry at the index is replaced whole (R98). -/
theorem carryDialplanWrite_payload (s : State) :
    s.carryDialplanWrite (e.payload i pad) = ({ s with dialPlan := s.dialPlan.set i e }, [0x00]) := by
  have index : Fin.ofNat 12 (byteAt (e.payload i pad) 0) = i := by
    rw [payload, byteAt_cons_zero, toByte_toNat (by omega), ofNat_index]
  rw [State.carryDialplanWrite, index, dialEntryAt_payload places nibbles tail]
  rfl

end

end DialEntry

end Sys2Proof.Machine

open Sys2Proof Sys2Proof.Machine

/-- Settles O24: the payload passes its checks, and the entry that it reads back as is written. -/
theorem dialPlanEntryReplaced : Obligations.DialPlanEntryReplaced := by
  intro tag i e pad s ready places nibbles tail least most party suffix
  exact exec_carried .dialplanWrite tag (e.payload i pad) ready
    (by rw [DialEntry.payload_length places]; rfl)
    (DialEntry.payload_passes places nibbles tail least most party suffix)
    (DialEntry.carryDialplanWrite_payload places nibbles tail s)
end

section
/-! The judgement of the digits against the dial plan (R100). -/

namespace Sys2Proof.Machine

theorem DialEntry.completesOn_iff (e : DialEntry) (ds : List Digit) : e.completesOn ds = true ↔
    e.enabled = true ∧ e.pre.length + e.tail = ds.length ∧ e.pre <+: ds := by
  simp [completesOn, DialEntry.length, and_assoc]

/-- Two lists of digits agree at every position that both cover when one begins the other (R100, step 2). -/
theorem agrees_iff (ps ds : List Digit) : agrees ps ds = true ↔ ps <+: ds ∨ ds <+: ps := by
  induction ps generalizing ds with
  | nil => simp [agrees]
  | cons p ps ih =>
    cases ds with
    | nil => simp [agrees]
    | cons d ds =>
      simp only [agrees, Bool.and_eq_true, beq_iff_eq, ih, List.cons_prefix_cons, eq_comm (a := d)]
      exact and_or_left

theorem DialEntry.continues_iff (e : DialEntry) (ds : List Digit) : e.continues ds = true ↔
    e.enabled = true ∧ ds.length < e.pre.length + e.tail ∧ (e.pre <+: ds ∨ ds <+: e.pre) := by
  simp only [continues, Bool.and_eq_true, decide_eq_true_eq, agrees_iff, and_assoc]
  rfl

section

variable {plan : Tab 12 DialEntry} {ds : List Digit}

/-- The lowest entry that the digits complete decides (R100, step 1). -/
theorem judgeDigits_complete {i : Fin 12} (completes : (plan.get i).completesOn ds = true)
    (lowest : ∀ j, j < i → ¬(plan.get j).completesOn ds = true) : judgeDigits plan ds = .complete (plan.get i).action := by
  have found : plan.items.find? (fun e => e.completesOn ds) = some (plan.get i) := by
    have first : (List.finRange 12).find? ((fun e => e.completesOn ds) ∘ plan.get) = some i :=
      find_rising completes (fun j other => not_lt.mp fun below => lowest j below other) _
        (List.pairwise_lt_finRange 12) (List.mem_finRange i)
    rw [Tab.items_eq_map, List.find?_map, first]
    rfl
  rw [judgeDigits, found]

/-- With no entry completed, an entry that may yet be completed decides (R100, step 2). -/
theorem judgeDigits_incomplete (missed : ∀ i, ¬(plan.get i).completesOn ds = true) :
    judgeDigits plan ds = if ∃ i, (plan.get i).continues ds = true then .collect else .unmatched := by
  have unfound : plan.items.find? (fun e => e.completesOn ds) = none := by
    simpa [Tab.items_eq_map] using missed
  rw [judgeDigits, unfound, Tab.items_eq_map]
  simp

end

end Sys2Proof.Machine

open Sys2Proof Sys2Proof.Machine

/-- Settles O52: the judgement by what it is to complete and to continue an entry; the revert checks in their order. -/
theorem dialPlanJudgesTheDigits : Obligations.DialPlanJudgesTheDigits := by
  refine ⟨fun plan ds _ => ?_, fun l called s rec opened dial => State.revertChecks_judged called dial opened⟩
  simp only [← DialEntry.completesOn_iff, ← DialEntry.continues_iff]
  refine ⟨fun i => judgeDigits_complete, fun missed continued => ?_, fun missed ended => ?_⟩
  · rw [judgeDigits_incomplete missed, if_pos continued]
  · rw [judgeDigits_incomplete missed, if_neg (not_exists.mpr ended)]
end

section
/-! The laws of the placement table, part by part (R124, R126, R127, R131): what each speaks of, and that they outlast
work that touches none of it. -/

namespace Sys2Proof.Machine

/-! ### Sums over the lines -/

theorem sum_lines (f : LineNo → Nat) : (lineNos.map f).sum = ∑ l, f l := by
  rw [lineNos_eq, Fin.sum_univ_def]

/-- A sum over the lines when the part of one line changes. -/
theorem sum_lines_change {f g : LineNo → Nat} {l : LineNo} (same : ∀ m, m ≠ l → g m = f m) :
    (lineNos.map g).sum + f l = (lineNos.map f).sum + g l := by
  have rest : ∑ m ∈ Finset.univ.erase l, g m = ∑ m ∈ Finset.univ.erase l, f m :=
    Finset.sum_congr rfl fun m h => same m (Finset.ne_of_mem_erase h)
  rw [sum_lines, sum_lines, ← Finset.add_sum_erase _ g (Finset.mem_univ l), ← Finset.add_sum_erase _ f (Finset.mem_univ l),
    rest]
  ac_rfl

theorem le_sum_lines (f : LineNo → Nat) (l : LineNo) : f l ≤ (lineNos.map f).sum := by
  rw [sum_lines]
  exact Finset.single_le_sum (fun _ _ => Nat.zero_le _) (Finset.mem_univ l)

/-! ### Lists of lines -/

/-- A list whose members with a property stand ahead of the others. -/
theorem pairwise_sections {α : Type} {p : α → Bool} {front back : List α} (hf : ∀ a ∈ front, p a = true)
    (hb : ∀ a ∈ back, p a = false) : (front ++ back).Pairwise fun a b => p b = true → p a = true := by
  refine List.pairwise_append.mpr ⟨?_, ?_, fun a ha _ _ _ => hf a ha⟩
  · exact List.pairwise_of_forall_mem_list fun a ha _ _ _ => hf a ha
  · exact List.pairwise_of_forall_mem_list fun a _ b hb' on => by simp [hb b hb'] at on

/-- Such a list is its two sections. -/
theorem sections_of_pairwise {α : Type} {p : α → Bool} {as : List α} (h : as.Pairwise fun a b => p b = true → p a = true) :
    as.filter p ++ as.filter (fun a => !p a) = as := by
  induction as with
  | nil => rfl
  | cons a as ih =>
    obtain ⟨ahead, rest⟩ := List.pairwise_cons.mp h
    cases ha : p a with
    | true => simp [ha, ih rest]
    | false =>
      have none' : ∀ b ∈ as, p b = false := fun b hb => by
        by_contra on
        exact absurd (ahead b hb (by simpa using on)) (by simp [ha])
      rw [List.filter_eq_nil_iff.mpr (by simpa [ha] using none'), List.filter_eq_self.mpr (by simpa [ha] using none')]
      rfl

theorem filter_ne_of_not_mem {l : LineNo} {ls : List LineNo} (h : l ∉ ls) : ls.filter (· != l) = ls :=
  List.filter_eq_self.mpr fun _ mem => by simpa using ne_of_mem_of_not_mem mem h

namespace State

variable {s t : State} {l : LineNo}

/-! ### Placed, queued, of class ALARM -/

theorem placed_iff : s.placed l = true ↔ ∃ e φ, s.row l = some e ∧ e.state = .placed φ := by
  unfold placed
  rcases h : s.row l with _ | ⟨_, _, _, _, _ | _ | _, _, _⟩ <;> simp

theorem queued_iff : s.queued l = true ↔ s.row l ≠ none ∧ s.placed l = false := by
  unfold queued
  cases h : s.row l <;> simp

theorem placed_of_row (h : t.row l = s.row l) : t.placed l = s.placed l := by unfold placed; rw [h]

theorem queued_of_row (h : t.row l = s.row l) : t.queued l = s.queued l := by
  unfold queued
  rw [h, placed_of_row h]

theorem alarmEntry_of_row (h : t.row l = s.row l) : t.alarmEntry l = s.alarmEntry l := by unfold alarmEntry; rw [h]

theorem placed_of_none (h : s.row l = none) : s.placed l = false := by simp [placed, h]

theorem queued_of_none (h : s.row l = none) : s.queued l = false := by simp [queued, h]

theorem alarmEntry_of_some {e : Entry} (h : s.row l = some e) : s.alarmEntry l = e.isAlarm := by simp [alarmEntry, h]

theorem placed_of_placed {e : Entry} {φ : Nat} (h : s.row l = some e) (k : e.state = .placed φ) : s.placed l = true :=
  placed_iff.mpr ⟨e, φ, h, k⟩

theorem placed_of_unplaced {e : Entry} (h : s.row l = some e) (k : ∀ φ, e.state ≠ .placed φ) : s.placed l = false :=
  Bool.eq_false_iff.mpr fun on => by
    obtain ⟨e', φ, row, placed⟩ := placed_iff.mp on
    cases h.symm.trans row
    exact k φ placed

theorem queued_of_unplaced {e : Entry} (h : s.row l = some e) (k : ∀ φ, e.state ≠ .placed φ) : s.queued l = true :=
  queued_iff.mpr ⟨by simp [h], placed_of_unplaced h k⟩

theorem queued_of_placed {e : Entry} {φ : Nat} (h : s.row l = some e) (k : e.state = .placed φ) : s.queued l = false := by
  simp [queued, h, placed_of_placed h k]

/-- The load of a line depends on its row and the cadence table alone (R126). -/
theorem loadOf_of_row (h : t.row l = s.row l) (cadence : t.cadence = s.cadence) (c : Channel) (cs : Nat) :
    t.loadOf c cs l = s.loadOf c cs l := by
  unfold loadOf loadAt voiceOn patternOn
  rw [h, cadence]

theorem loadOf_of_placed {e : Entry} {φ : Nat} (h : s.row l = some e) (k : e.state = .placed φ) (c : Channel) (cs : Nat) :
    s.loadOf c cs l = s.loadAt e φ c cs := by simp [loadOf, h, k]

theorem loadOf_of_unplaced (h : s.placed l = false) (c : Channel) (cs : Nat) : s.loadOf c cs l = 0 := by
  unfold loadOf
  split
  · rfl
  · next e row =>
    split
    · next φ state => simp [placed_of_placed row state] at h
    all_goals rfl

end State

/-! ### What leaves the placement table alone -/

/-- From `s` to `t` the placement table, the profile, the two lists and the cadence table are as they were, and a supply
that was ON is ON. -/
structure SameTable (s t : State) : Prop where
  rows : t.arb.rows = s.arb.rows
  profile : t.arb.profile = s.arb.profile
  placedOrder : t.arb.placedOrder = s.arb.placedOrder
  waitQueue : t.arb.waitQueue = s.arb.waitQueue
  supply : s.arb.supply = .on → t.arb.supply = .on
  cadence : t.cadence = s.cadence

namespace SameTable

variable {s t u : State}

theorem of_eq (h : t.arb = s.arb) (cadence : t.cadence = s.cadence) : SameTable s t :=
  ⟨by rw [h], by rw [h], by rw [h], by rw [h], by rw [h]; exact id, cadence⟩

theorem refl (s : State) : SameTable s s := of_eq rfl rfl

theorem trans (h : SameTable s t) (k : SameTable t u) : SameTable s u :=
  ⟨k.rows.trans h.rows, k.profile.trans h.profile, k.placedOrder.trans h.placedOrder, k.waitQueue.trans h.waitQueue,
    fun on => k.supply (h.supply on), k.cadence.trans h.cadence⟩

theorem row (h : SameTable s t) (l : LineNo) : t.row l = s.row l := by unfold State.row; rw [h.rows]

theorem standbyEvent (ev : StandbyEvent) (s : State) : SameTable s (s.standbyEvent ev) := by
  have reloaded : SameTable s (s.reloadStandby ev) := by
    unfold State.reloadStandby
    split
    · exact ⟨rfl, rfl, rfl, rfl, id, rfl⟩
    · exact refl s
  unfold State.standbyEvent
  dsimp only
  split
  · next wakes =>
    have standby : (s.reloadStandby ev).arb.supply = .standby := by
      simp only [Arbiter.wakes, Bool.and_eq_true, beq_iff_eq] at wakes
      exact wakes.1
    refine reloaded.trans (SameTable.trans (t := (s.reloadStandby ev).updArb fun a =>
      { a with supply := .warming, warmUpCount := a.warmUpFrames }) ⟨rfl, rfl, rfl, rfl, fun on => ?_, rfl⟩
      (of_eq (State.markDevice_arb _ _ _) (State.markDevice_cadence _ _ _)))
    simp [standby] at on
  · exact reloaded

end SameTable

namespace State

variable {s t : State} {l : LineNo}

/-! ### The arbiter's law -/

theorem arbiterLaw.unqueued (law : s.arbiterLaw) (h : s.queued l = false) : l ∉ s.arb.waitQueue := fun mem => by
  exact absurd ((law.queueHeld l).mp mem) (by simp [h])

theorem arbiterLaw.unplaced (law : s.arbiterLaw) (h : s.placed l = false) : l ∉ s.arb.placedOrder := fun mem =>
  absurd ((law.placedHeld l).mp mem) (by simp [h])

/-- The law speaks of which lines are placed, queued and of class ALARM, of the lists, and of a supply that is ON. -/
theorem arbiterLaw.of_shapes (law : s.arbiterLaw) (placed : ∀ l, t.placed l = s.placed l)
    (queued : ∀ l, t.queued l = s.queued l) (alarm : ∀ l, t.alarmEntry l = s.alarmEntry l)
    (order : t.arb.placedOrder = s.arb.placedOrder) (queue : t.arb.waitQueue = s.arb.waitQueue)
    (supply : s.arb.supply = .on → t.arb.supply = .on) : t.arbiterLaw where
  placedOnce := order ▸ law.placedOnce
  queuedOnce := queue ▸ law.queuedOnce
  placedHeld l := by rw [order, placed]; exact law.placedHeld l
  queueHeld l := by rw [queue, queued]; exact law.queueHeld l
  alarmsFirst := by rw [queue]; simpa only [alarm] using law.alarmsFirst
  supplyOn l h := supply (law.supplyOn l (placed l ▸ h))

theorem arbiterLaw.of_same (law : s.arbiterLaw) (h : SameTable s t) : t.arbiterLaw :=
  law.of_shapes (fun l => placed_of_row (h.row l)) (fun l => queued_of_row (h.row l))
    (fun l => alarmEntry_of_row (h.row l)) h.placedOrder h.waitQueue h.supply

/-- The queue without a line, whatever becomes of that line's row (R131). -/
theorem arbiterLaw.alarmsFirst_without (law : s.arbiterLaw) (rows : ∀ m, m ≠ l → t.row m = s.row m) :
    (s.arb.waitQueue.filter (· != l)).Pairwise fun a b => t.alarmEntry b = true → t.alarmEntry a = true := by
  refine (law.alarmsFirst.filter _).imp_of_mem fun {a b} ha hb h => ?_
  rwa [alarmEntry_of_row (rows a (by simpa using (List.mem_filter.mp ha).2)),
    alarmEntry_of_row (rows b (by simpa using (List.mem_filter.mp hb).2))]

/-- A line's entry goes (R137). -/
theorem arbiterLaw.of_removed (law : s.arbiterLaw) (row : t.row l = none) (rows : ∀ m, m ≠ l → t.row m = s.row m)
    (order : t.arb.placedOrder = s.arb.placedOrder.filter (· != l))
    (queue : t.arb.waitQueue = s.arb.waitQueue.filter (· != l)) (supply : t.arb.supply = s.arb.supply) :
    t.arbiterLaw where
  placedOnce := order ▸ law.placedOnce.filter _
  queuedOnce := queue ▸ law.queuedOnce.filter _
  placedHeld m := by
    by_cases same : m = l
    · simp [order, same, placed_of_none row]
    · simp [order, same, placed_of_row (rows m same), law.placedHeld m]
  queueHeld m := by
    by_cases same : m = l
    · simp [queue, same, queued_of_none row]
    · simp [queue, same, queued_of_row (rows m same), law.queueHeld m]
  alarmsFirst := queue ▸ law.alarmsFirst_without rows
  supplyOn m h := by
    by_cases same : m = l
    · simp [same, placed_of_none row] at h
    · rw [supply]
      exact law.supplyOn m (by rwa [placed_of_row (rows m same)] at h)

/-- A line's entry is PLACED, with the supply ON (R129). -/
theorem arbiterLaw.of_placed {e : Entry} {φ : Nat} (law : s.arbiterLaw) (row : t.row l = some e) (state : e.state = .placed φ)
    (rows : ∀ m, m ≠ l → t.row m = s.row m) (order : t.arb.placedOrder = s.arb.placedOrder.filter (· != l) ++ [l])
    (queue : t.arb.waitQueue = s.arb.waitQueue.filter (· != l)) (on : t.arb.supply = .on) : t.arbiterLaw where
  placedOnce := by
    rw [order]
    exact (law.placedOnce.filter _).append (List.nodup_singleton l) (by simp)
  queuedOnce := queue ▸ law.queuedOnce.filter _
  placedHeld m := by
    by_cases same : m = l
    · simp [order, same, placed_of_placed row state]
    · simp [order, same, placed_of_row (rows m same), law.placedHeld m]
  queueHeld m := by
    by_cases same : m = l
    · simp [queue, same, queued_of_placed row state]
    · simp [queue, same, queued_of_row (rows m same), law.queueHeld m]
  alarmsFirst := queue ▸ law.alarmsFirst_without rows
  supplyOn _ _ := on

/-- A new entry joins the queue at its place (R131). -/
theorem arbiterLaw.of_joined {e : Entry} (law : s.arbiterLaw) (row : t.row l = some e) (state : ∀ φ, e.state ≠ .placed φ)
    (rows : ∀ m, m ≠ l → t.row m = s.row m) (fresh : s.row l = none) (order : t.arb.placedOrder = s.arb.placedOrder)
    (queue : t.arb.waitQueue = if e.isAlarm then s.alarmSection ++ [l] ++ s.ordinarySection else s.arb.waitQueue ++ [l])
    (supply : s.arb.supply = .on → t.arb.supply = .on) : t.arbiterLaw := by
  have outside : l ∉ s.arb.waitQueue := law.unqueued (queued_of_none fresh)
  have alarm : ∀ m ∈ s.arb.waitQueue, t.alarmEntry m = s.alarmEntry m := fun m mem =>
    alarmEntry_of_row (rows m fun same => outside (same ▸ mem))
  have perm : t.arb.waitQueue.Perm (l :: s.arb.waitQueue) := by
    rw [queue]
    split
    · refine List.Perm.trans (l₂ := l :: (s.alarmSection ++ s.ordinarySection)) (by simp) ?_
      exact (sections_of_pairwise law.alarmsFirst).symm ▸ List.Perm.refl _
    · exact List.perm_append_singleton _ _
  refine ⟨order ▸ law.placedOnce, perm.nodup_iff.mpr (List.nodup_cons.mpr ⟨outside, law.queuedOnce⟩), fun m => ?_,
    fun m => ?_, ?_, fun m h => ?_⟩
  · by_cases same : m = l
    · subst same
      simp [order, placed_of_unplaced row state, law.unplaced (placed_of_none fresh)]
    · rw [order, placed_of_row (rows m same)]
      exact law.placedHeld m
  · rw [perm.mem_iff]
    by_cases same : m = l
    · subst same
      simp [queued_of_unplaced row state]
    · simp [same, queued_of_row (rows m same), law.queueHeld m]
  · rw [queue]
    split
    · next isAlarm =>
      refine pairwise_sections (fun m mem => ?_) (fun m mem => ?_)
      · rcases List.mem_append.mp mem with mem | mem
        · obtain ⟨mem, on⟩ := List.mem_filter.mp mem
          rwa [alarm m mem]
        · rw [List.mem_singleton.mp mem, alarmEntry_of_some row]
          exact isAlarm
      · obtain ⟨mem, off⟩ := List.mem_filter.mp mem
        rw [alarm m mem]
        simpa using off
    · next ordinary =>
      refine List.pairwise_append.mpr ⟨?_, List.pairwise_singleton _ _, fun a _ b hb on => ?_⟩
      · exact law.alarmsFirst.imp_of_mem fun {a b} ha hb h => by rwa [alarm a ha, alarm b hb]
      · rw [List.mem_singleton.mp hb, alarmEntry_of_some row] at on
        exact absurd on ordinary
  · by_cases same : m = l
    · simp [same, placed_of_unplaced row state] at h
    · exact supply (law.supplyOn m (by rwa [placed_of_row (rows m same)] at h))

/-! ### The profile's law -/

/-- The law speaks of the profile, the rows and the cadence table. -/
theorem profileLaw.of_loads (law : s.profileLaw) (profile : t.arb.profile = s.arb.profile)
    (loads : ∀ c cs l, t.loadOf c cs l = s.loadOf c cs l) : t.profileLaw := fun c cs => by
  rw [profile, law c cs, funext (loads c cs.val)]

theorem profileLaw.of_same (law : s.profileLaw) (h : SameTable s t) : t.profileLaw :=
  law.of_loads h.profile fun c cs l => loadOf_of_row (h.row l) h.cadence c cs

/-- The loads of one line change, and the profile with them. -/
theorem profileLaw.of_change (law : s.profileLaw) (cadence : t.cadence = s.cadence)
    (rows : ∀ m, m ≠ l → t.row m = s.row m)
    (profile : ∀ c (cs : Fin 120), (t.arb.profile.get c).get cs
      = (s.arb.profile.get c).get cs + t.loadOf c cs.val l - s.loadOf c cs.val l) : t.profileLaw := fun c cs => by
  have change := sum_lines_change (l := l) fun m other => loadOf_of_row (rows m other) cadence c cs.val
  rw [profile c cs, law c cs]
  omega

end State

end Sys2Proof.Machine
end

section
/-! What work of one line leaves of the placement table and of the line's run: all that the call blocks do but for
requests, removals and the ends of runs. -/

namespace Sys2Proof.Machine

/-- Work of line `l` from `s` to `t` that touches neither the placement table nor the line's run. -/
structure Rests (l : LineNo) (s t : State) : Prop where
  table : SameTable s t
  local_ : Local l s t
  run : (t.line l).run = (s.line l).run

namespace Rests

variable {s t u : State} {l : LineNo}

theorem refl (l : LineNo) (s : State) : Rests l s s := ⟨.refl s, .refl s, rfl⟩

theorem trans (h : Rests l s t) (k : Rests l t u) : Rests l s u :=
  ⟨h.table.trans k.table, h.local_.trans k.local_, k.run.trans h.run⟩

theorem updLine (l : LineNo) (f : Line → Line) (run : (f (s.line l)).run = (s.line l).run := by rfl) :
    Rests l s (s.updLine l f) :=
  ⟨.of_eq rfl rfl, .updLine l f, by simpa using run⟩

theorem mark (l : LineNo) (k : ReportKind) (e : Fin 17) (d : List Byte) (s : State) : Rests l s (s.mark k e d) :=
  ⟨.of_eq (State.mark_arb ..) (State.mark_cadence ..), .mark .., by simp⟩

theorem markLine (l : LineNo) (k : ReportKind) (m : LineNo) (d : List Byte) (s : State) : Rests l s (s.markLine k m d) :=
  mark ..

theorem standbyEvent (l : LineNo) (ev : StandbyEvent) (s : State) : Rests l s (s.standbyEvent ev) :=
  ⟨.standbyEvent ev s, .standbyEvent ev, by simp⟩

/-! ### Records and call states -/

theorem updRecord (l : LineNo) (f : Record → Record) (s : State) : Rests l s (s.updRecord l f) := updLine l _

theorem completeRecord (l : LineNo) (c : EndCause) (s : State) : Rests l s (s.completeRecord l c) := by
  unfold State.completeRecord
  split
  · exact refl l s
  · exact Rests.trans (updLine l _) (markLine ..)

theorem endCall (l : LineNo) (new : CallState) (c : EndCause) (s : State) : Rests l s (s.endCall l new c) := by
  have put : Rests l s ((s.completeRecord l c).putCall l new) := (completeRecord l c s).trans (updLine l _)
  unfold State.endCall
  dsimp only
  split
  · exact put
  · exact put.trans (markLine ..)

theorem enter (l : LineNo) (new : CallState) (s : State) : Rests l s (s.enter l new) := by
  have put : Rests l s (s.putCall l new) := updLine l _
  unfold State.enter
  dsimp only
  split
  · exact put
  · exact put.trans (markLine ..)

theorem originate (l : LineNo) (s : State) : Rests l s (s.originate l) :=
  Rests.trans (Rests.trans (Rests.trans (updLine l _) (updLine l _)) (enter ..)) (standbyEvent ..)

theorem writeBaseline (l : LineNo) (b : Nat) (s : State) : Rests l s (s.writeBaseline l b) := by
  unfold State.writeBaseline
  dsimp only
  split
  · exact updLine l _
  · exact Rests.trans (updLine l _) (markLine ..)

/-! ### Dialling, reverting calls and party tests -/

theorem enterExchWait (l : LineNo) (s : State) : Rests l s (s.enterExchWait l) := by
  have waits : Rests l s ((s.updLine l fun x => { x with out := OutList.empty }).enter l .exchWait) :=
    Rests.trans (updLine l _) (enter ..)
  unfold State.enterExchWait
  dsimp only
  split
  · exact waits
  · exact waits.trans (markLine ..)

theorem revertChecks (l : LineNo) (called : Option (LineNo × Slot)) (s : State) : Rests l s (s.revertChecks l called) := by
  unfold State.revertChecks
  dsimp only
  split
  · exact endCall ..
  · split
    · exact endCall ..
    · split
      · exact endCall ..
      · split
        · exact (updRecord ..).trans (endCall ..)
        · split
          · exact (updRecord ..).trans (endCall ..)
          · split
            · exact (updRecord ..).trans (endCall ..)
            · exact ((updRecord ..).trans (updRecord ..)).trans (enter ..)

theorem consultDialPlan (l : LineNo) (s : State) : Rests l s (s.consultDialPlan l) := by
  unfold State.consultDialPlan State.dialAction
  split
  · exact refl l s
  · dsimp only
    split
    · exact enterExchWait ..
    · exact endCall ..
    · exact revertChecks ..
    · exact revertChecks ..
  · split
    · exact enterExchWait ..
    · exact endCall ..

theorem markAnswer (l : LineNo) (m : Manner) (s : State) : Rests l s (s.markAnswer l m) := by
  unfold State.markAnswer
  split
  · exact refl l s
  · exact markLine ..

theorem revertResult (l : LineNo) (res : TestResult) (s : State) : Rests l s (s.revertResult l res) := by
  unfold State.revertResult
  dsimp only
  split
  · split
    · exact (updRecord ..).trans (enter ..)
    · split
      · exact (updRecord ..).trans (endCall ..)
      · exact (updRecord ..).trans (enter ..)
  · exact ((updRecord ..).trans (markAnswer ..)).trans (enter ..)

theorem identify (l : LineNo) (res : TestResult) (s : State) : Rests l s (s.identify l res) :=
  ((updRecord ..).trans (markLine ..)).trans (enter ..)

theorem dialDigit (l : LineNo) (d : Digit) (s : State) : Rests l s (s.dialDigit l d) :=
  Rests.trans (updLine l _) (consultDialPlan ..)

theorem trackScan (l : LineNo) (judged : Bool) (reading : Nat) (s : State) : Rests l s (s.trackScan l judged reading) := by
  unfold State.trackScan
  dsimp only
  split
  · split
    · exact updLine l _
    · exact Rests.trans (updLine l _) (writeBaseline ..)
  · exact updLine l _

theorem connectLine (l : LineNo) (s : State) : Rests l s (s.connectLine l) := by
  unfold State.connectLine
  dsimp only
  split
  · exact (updRecord ..).trans (enter ..)
  · exact ((updRecord ..).trans (markLine ..)).trans (enter ..)

end Rests

end Sys2Proof.Machine
end

section
/-! The laws of the placement table through its own operations (R125, R129 to R131, R136, R137): a request, a placement,
a removal, a suspension. -/

namespace Sys2Proof.Machine.State

variable {s t : State} {l : LineNo} {e : Entry} {φ : Nat}

/-! ### Removal -/

theorem removeEntry_arb (h : s.row l = some e) : (s.removeEntry l).arb =
    { s.arb with
      rows := s.arb.rows.set l none
      profile := s.profileLess s.arb.profile e
      placedOrder := s.arb.placedOrder.filter (· != l)
      waitQueue := s.arb.waitQueue.filter (· != l) } := by
  simp [removeEntry, h]

@[simp] theorem removeEntry_cadence (l : LineNo) (s : State) : (s.removeEntry l).cadence = s.cadence :=
  congrArg (·.2.1) (Kept.removeEntry l).given

/-- A profile without an entry is short of the loads of that entry's line (R136, R137). -/
theorem profileLess_get (h : s.row l = some e) (p : Tab 4 (Tab 120 Nat)) (c : Channel) (cs : Fin 120) :
    ((s.profileLess p e).get c).get cs = (p.get c).get cs - s.loadOf c cs.val l := by
  unfold profileLess loadOf
  rw [h]
  cases state : e.state <;> simp [state, profileWithout]

theorem arbiterLaw.removeEntry (law : s.arbiterLaw) (l : LineNo) : (s.removeEntry l).arbiterLaw := by
  cases h : s.row l with
  | none => rwa [removeEntry_of_none h]
  | some e =>
    have arb := removeEntry_arb h
    exact law.of_removed (row_removeEntry l s) (Local.removeEntry l).row (by rw [arb]) (by rw [arb]) (by rw [arb])

theorem profileLaw.removeEntry (law : s.profileLaw) (l : LineNo) : (s.removeEntry l).profileLaw := by
  cases h : s.row l with
  | none => rwa [removeEntry_of_none h]
  | some e =>
    refine law.of_change (removeEntry_cadence l s) (Local.removeEntry l).row fun c cs => ?_
    rw [removeEntry_arb h, profileLess_get h, loadOf_of_unplaced (placed_of_none (row_removeEntry l s)), Nat.add_zero]

/-! ### Placement -/

@[simp] theorem placeEntry_cadence (l : LineNo) (e : Entry) (φ : Nat) (s : State) :
    (s.placeEntry l e φ).cadence = s.cadence := congrArg (·.2.1) (Kept.placeEntry l e φ).given

@[simp] theorem profileWith_get (e : Entry) (φ : Nat) (c : Channel) (cs : Fin 120) :
    ((s.profileWith e φ).get c).get cs = (s.arb.profile.get c).get cs + s.loadAt e φ c cs.val := by
  simp [profileWith]

/-- The load of an entry depends on its voices and the cadence table alone (R126). -/
theorem loadAt_of_cadence (h : t.cadence = s.cadence) (e : Entry) (φ : Nat) (c : Channel) (cs : Nat) :
    t.loadAt e φ c cs = s.loadAt e φ c cs := by
  unfold loadAt voiceOn patternOn
  rw [h]

theorem loadOf_placeEntry (c : Channel) (cs : Nat) : (s.placeEntry l e φ).loadOf c cs l = s.loadAt e φ c cs := by
  rw [loadOf_of_placed (e := e.placedAt φ) (by rw [row_placeEntry, if_pos rfl]) rfl,
    loadAt_of_cadence (placeEntry_cadence l e φ s)]
  rfl

/-- The placement of an entry that loads the profile in no way yet, whatever else its row holds (R129). -/
theorem profileLaw.placeEntry {u : State} (law : s.profileLaw) (profile : u.arb.profile = s.arb.profile)
    (cadence : u.cadence = s.cadence) (rows : ∀ m, m ≠ l → u.row m = s.row m) (unplaced : s.placed l = false) (e : Entry)
    (φ : Nat) : (u.placeEntry l e φ).profileLaw := by
  refine law.of_change (l := l) (by simp [cadence]) (fun m other => ?_) fun c cs => ?_
  · rw [row_placeEntry, if_neg other, rows m other]
  · rw [placeEntry_arb, profileWith_get, loadOf_placeEntry, profile, loadOf_of_unplaced unplaced, Nat.sub_zero]

/-! ### Requests -/

/-- A request to the arbiter as its admission finds it: the entry written, the REQUEST event taken (R125, R130). -/
def asked (l : LineNo) (e : Entry) (s : State) : State := (s.setRow l (some e)).standbyEvent .request

theorem request_eq (l : LineNo) (e : Entry) (s : State) : s.request l e = (s.asked l e).tryAdmission l e := rfl

theorem asked_table (l : LineNo) (e : Entry) (s : State) : SameTable (s.setRow l (some e)) (s.asked l e) :=
  .standbyEvent ..

theorem row_asked (l m : LineNo) (e : Entry) (s : State) :
    (s.asked l e).row m = if m = l then some e else s.row m := by simp [asked]

/-- The two ways in which an admission ends (R130). -/
theorem tryAdmission_cases (l : LineNo) (e : Entry) (s : State) :
    (∃ φ, s.immediate e.cls = true ∧ s.search e = some φ ∧ s.tryAdmission l e = s.placeEntry l e φ)
      ∨ ((s.immediate e.cls = false ∨ s.search e = none) ∧ s.tryAdmission l e = s.joinWaiting l) := by
  unfold tryAdmission
  cases at_once : s.immediate e.cls with
  | false => exact .inr ⟨.inl rfl, rfl⟩
  | true =>
    cases found : s.search e with
    | none => exact .inr ⟨.inr rfl, rfl⟩
    | some φ => exact .inl ⟨φ, rfl, rfl, rfl⟩

theorem joinWaiting_eq (l : LineNo) (s : State) : s.joinWaiting l = s.updArb fun a =>
    { a with waitQueue := if s.alarmEntry l then s.alarmSection ++ [l] ++ s.ordinarySection else a.waitQueue ++ [l] } := by
  unfold joinWaiting
  split <;> rfl

/-- The queue's sections do not know of an entry that is not in the queue (R131). -/
theorem sections_asked (outside : l ∉ s.arb.waitQueue) : (s.asked l e).alarmSection = s.alarmSection
    ∧ (s.asked l e).ordinarySection = s.ordinarySection := by
  have alarm : ∀ m ∈ s.arb.waitQueue, (s.asked l e).alarmEntry m = s.alarmEntry m := fun m mem =>
    alarmEntry_of_row (by rw [row_asked, if_neg (ne_of_mem_of_not_mem mem outside)])
  unfold alarmSection ordinarySection
  rw [(asked_table l e s).waitQueue]
  exact ⟨List.filter_congr alarm, List.filter_congr fun m mem => by rw [alarm m mem]⟩

/-- The queue after an admission that did not place the entry (R131). -/
theorem waitQueue_joined (outside : l ∉ s.arb.waitQueue) : ((s.asked l e).joinWaiting l).arb.waitQueue =
    if e.isAlarm then s.alarmSection ++ [l] ++ s.ordinarySection else s.arb.waitQueue ++ [l] := by
  obtain ⟨alarms, others⟩ := sections_asked (e := e) outside
  have alarm : (s.asked l e).alarmEntry l = e.isAlarm := alarmEntry_of_some (by rw [row_asked, if_pos rfl])
  rw [joinWaiting_eq, alarms, others, alarm, updArb_arb, (asked_table l e s).waitQueue]
  rfl

theorem arbiterLaw.request (law : s.arbiterLaw) (fresh : s.row l = none) (waits : ∀ φ, e.state ≠ .placed φ) :
    (s.request l e).arbiterLaw := by
  have table := asked_table l e s
  rw [request_eq]
  rcases tryAdmission_cases l e (s.asked l e) with ⟨φ, at_once, -, placed⟩ | ⟨-, joined⟩
  · rw [placed]
    have on : (s.asked l e).arb.supply = .on := by
      simp only [immediate, Bool.and_eq_true, beq_iff_eq] at at_once
      exact at_once.1
    refine law.of_placed (e := e.placedAt φ) (φ := φ) (by rw [row_placeEntry, if_pos rfl]) rfl (fun m other => ?_) ?_ ?_ ?_
    · rw [row_placeEntry, if_neg other, row_asked, if_neg other]
    · rw [placeEntry_arb, table.placedOrder]; rfl
    · rw [placeEntry_arb, table.waitQueue]; rfl
    · rw [placeEntry_arb, on]
  · rw [joined]
    have queue := waitQueue_joined (e := e) (law.unqueued (queued_of_none fresh))
    rw [joinWaiting_eq] at queue ⊢
    refine law.of_joined (e := e) ?_ waits (fun m other => ?_) fresh table.placedOrder queue table.supply
    · exact (row_asked l l e s).trans (if_pos rfl)
    · exact (row_asked l m e s).trans (if_neg other)

theorem profileLaw.request (law : s.profileLaw) (fresh : s.row l = none) (waits : ∀ φ, e.state ≠ .placed φ) :
    (s.request l e).profileLaw := by
  have table := asked_table l e s
  rw [request_eq]
  rcases tryAdmission_cases l e (s.asked l e) with ⟨φ, -, -, placed⟩ | ⟨-, joined⟩
  · rw [placed]
    exact law.placeEntry table.profile table.cadence (fun m other => by rw [row_asked, if_neg other])
      (placed_of_none fresh) e φ
  · rw [joined, joinWaiting_eq]
    have row : ∀ m, (s.asked l e).row m = if m = l then some e else s.row m := fun m => row_asked l m e s
    refine law.of_loads table.profile fun c cs m => ?_
    by_cases same : m = l
    · subst same
      rw [loadOf_of_unplaced (placed_of_none fresh), loadOf_of_unplaced (placed_of_unplaced (e := e) ?_ waits)]
      exact (row m).trans (if_pos rfl)
    · exact loadOf_of_row ((row m).trans (if_neg same)) table.cadence c cs

/-! ### Withdrawal -/

theorem withdraw_eq (h : s.row l = some e) : s.withdraw l =
    (s.updArb fun a =>
      { a with
        rows := a.rows.set l (some e.suspendedEntry)
        profile := s.profileLess a.profile e
        placedOrder := a.placedOrder.filter (· != l) }).updLine l fun x => { x with play := none } := by
  simp [withdraw, h]

theorem withdraw_of_none (h : s.row l = none) : s.withdraw l = s := by simp [withdraw, h]

@[simp] theorem row_withdraw (l m : LineNo) (s : State) :
    (s.withdraw l).row m = if m = l then (s.row m).map Entry.suspendedEntry else s.row m := by
  cases h : s.row l with
  | none =>
    rw [withdraw_of_none h]
    split
    · next same => rw [same, h]; rfl
    · rfl
  | some e =>
    rw [withdraw_eq h]
    simp only [row, updLine_arb, updArb_arb, Tab.get_set]
    split
    · next same => rw [same, show s.arb.rows.get l = some e from h]; rfl
    · rfl

@[simp] theorem line_withdraw (l m : LineNo) (s : State) : (s.withdraw l).line m =
    if m = l ∧ s.row l ≠ none then { s.line m with play := none } else s.line m := by
  cases h : s.row l with
  | none => simp [withdraw_of_none h]
  | some e =>
    rw [withdraw_eq h]
    by_cases same : m = l <;> simp [same]

@[simp] theorem withdraw_waitQueue (l : LineNo) (s : State) : (s.withdraw l).arb.waitQueue = s.arb.waitQueue := by
  cases h : s.row l with
  | none => rw [withdraw_of_none h]
  | some e => rw [withdraw_eq h]; rfl

@[simp] theorem withdraw_supply (l : LineNo) (s : State) : (s.withdraw l).arb.supply = s.arb.supply := by
  cases h : s.row l with
  | none => rw [withdraw_of_none h]
  | some e => rw [withdraw_eq h]; rfl

@[simp] theorem withdraw_link (l : LineNo) (s : State) : (s.withdraw l).link = s.link := by
  cases h : s.row l with
  | none => rw [withdraw_of_none h]
  | some e => rw [withdraw_eq h]; rfl

theorem withdraw_placedOrder (h : s.row l ≠ none) :
    (s.withdraw l).arb.placedOrder = s.arb.placedOrder.filter (· != l) := by
  obtain ⟨e, row⟩ := Option.ne_none_iff_exists'.mp h
  rw [withdraw_eq row]
  rfl

theorem suspended_unplaced (φ : Nat) : e.suspendedEntry.state ≠ .placed φ := nofun

theorem profileLaw.withdraw (law : s.profileLaw) (l : LineNo) : (s.withdraw l).profileLaw := by
  cases h : s.row l with
  | none => rwa [withdraw_of_none h]
  | some e =>
    have row : (s.withdraw l).row l = some e.suspendedEntry := by simp [h]
    refine law.of_change (l := l) (congrArg (·.2.1) (Kept.withdraw l).given) (fun m other => by simp [other]) fun c cs => ?_
    rw [loadOf_of_unplaced (placed_of_unplaced row suspended_unplaced), Nat.add_zero, ← profileLess_get h, withdraw_eq h]
    rfl

/-- The lines of one event withdrawn, one after another (R136). -/
def withdrawAll (ls : List LineNo) (s : State) : State := ls.foldl (fun t l => t.withdraw l) s

@[simp] theorem withdrawAll_nil (s : State) : s.withdrawAll [] = s := rfl

@[simp] theorem withdrawAll_cons (l : LineNo) (ls : List LineNo) (s : State) :
    s.withdrawAll (l :: ls) = (s.withdraw l).withdrawAll ls := rfl

theorem withdrawAll_kept (ls : List LineNo) (s : State) : Kept s (s.withdrawAll ls) :=
  .foldl _ (fun _ l => .withdraw l) ls s

theorem row_withdrawAll (ls : List LineNo) (m : LineNo) (s : State) :
    (s.withdrawAll ls).row m = if m ∈ ls then (s.row m).map Entry.suspendedEntry else s.row m := by
  induction ls generalizing s with
  | nil => rfl
  | cons l ls ih =>
    rw [withdrawAll_cons, ih, row_withdraw]
    by_cases same : m = l
    · have twice : Entry.suspendedEntry ∘ Entry.suspendedEntry = Entry.suspendedEntry := rfl
      simp [same, twice]
    · simp [same]

theorem line_withdrawAll (ls : List LineNo) (m : LineNo) (s : State) : (s.withdrawAll ls).line m =
    if m ∈ ls ∧ s.row m ≠ none then { s.line m with play := none } else s.line m := by
  induction ls generalizing s with
  | nil => rfl
  | cons l ls ih =>
    rw [withdrawAll_cons, ih, row_withdraw, line_withdraw]
    by_cases same : m = l
    · cases row : s.row l <;> simp [same, row]
    · simp [same]

theorem withdrawAll_lists (ls : List LineNo) (s : State) (held : ∀ l ∈ ls, s.row l ≠ none) :
    (s.withdrawAll ls).arb.placedOrder = s.arb.placedOrder.filter (fun l => !ls.contains l)
      ∧ (s.withdrawAll ls).arb.waitQueue = s.arb.waitQueue ∧ (s.withdrawAll ls).arb.supply = s.arb.supply
      ∧ (s.withdrawAll ls).link = s.link := by
  induction ls generalizing s with
  | nil => simp
  | cons l ls ih =>
    obtain ⟨order, queue, supply, link⟩ := ih (s.withdraw l) fun m mem => by
      rw [row_withdraw]
      have row := held m (List.mem_cons_of_mem l mem)
      split <;> simpa using row
    rw [withdrawAll_cons]
    refine ⟨?_, by rw [queue, withdraw_waitQueue], by rw [supply, withdraw_supply], by rw [link, withdraw_link]⟩
    rw [order, withdraw_placedOrder (held l List.mem_cons_self), List.filter_filter]
    refine List.filter_congr fun m _ => ?_
    by_cases same : m = l <;> simp [same]

theorem profileLaw.withdrawAll (law : s.profileLaw) (ls : List LineNo) : (s.withdrawAll ls).profileLaw := by
  induction ls generalizing s with
  | nil => exact law
  | cons l ls ih => exact ih (law.withdraw l)

/-! ### Suspension -/

/-- The lines suspended in one event stand in the queue (R131, R136). -/
def suspended (ls : List LineNo) (s : State) : State := (s.withdrawAll ls).joinSuspended ls

theorem row_suspended (ls : List LineNo) (m : LineNo) (s : State) :
    (s.suspended ls).row m = if m ∈ ls then (s.row m).map Entry.suspendedEntry else s.row m := row_withdrawAll ls m s

theorem line_suspended (ls : List LineNo) (m : LineNo) (s : State) : (s.suspended ls).line m =
    if m ∈ ls ∧ s.row m ≠ none then { s.line m with play := none } else s.line m := line_withdrawAll ls m s

theorem alarmEntry_withdrawAll (ls : List LineNo) (m : LineNo) (s : State) :
    (s.withdrawAll ls).alarmEntry m = s.alarmEntry m := by
  unfold alarmEntry
  rw [row_withdrawAll]
  cases s.row m <;> by_cases mem : m ∈ ls <;> simp [mem, Entry.suspendedEntry, Entry.isAlarm]

theorem suspended_lists (ls : List LineNo) (s : State) (held : ∀ l ∈ ls, s.row l ≠ none) :
    (s.suspended ls).arb.placedOrder = s.arb.placedOrder.filter (fun l => !ls.contains l)
      ∧ (s.suspended ls).arb.waitQueue = s.queueWith ls ∧ (s.suspended ls).arb.supply = s.arb.supply
      ∧ (s.suspended ls).link = s.link := by
  obtain ⟨order, queue, supply, link⟩ := withdrawAll_lists ls s held
  refine ⟨order, ?_, supply, link⟩
  have alarm : (s.withdrawAll ls).alarmEntry = s.alarmEntry := funext fun m => alarmEntry_withdrawAll ls m s
  simp only [suspended, joinSuspended, updArb_arb, alarmSection, ordinarySection, queue, alarm, queueWith]

/-- The queue's sections, each with the suspended lines in front (R131). -/
theorem queueWith_eq (ls : List LineNo) (s : State) : s.queueWith ls =
    (ls ++ s.arb.waitQueue).filter s.alarmEntry ++ (ls ++ s.arb.waitQueue).filter fun l => !s.alarmEntry l := by
  simp [queueWith, List.filter_append]

theorem queueWith_perm (ls : List LineNo) (s : State) : (s.queueWith ls).Perm (ls ++ s.arb.waitQueue) := by
  rw [queueWith_eq]
  exact List.filter_append_perm _ _

theorem mem_queueWith {ls : List LineNo} : l ∈ s.queueWith ls ↔ l ∈ ls ∨ l ∈ s.arb.waitQueue := by
  rw [(queueWith_perm ls s).mem_iff, List.mem_append]

theorem row_of_placed (h : s.placed l = true) : s.row l ≠ none := by
  obtain ⟨e, -, row, -⟩ := placed_iff.mp h
  simp [row]

theorem arbiterLaw.suspended (law : s.arbiterLaw) {ls : List LineNo} (once : ls.Nodup)
    (placed : ∀ l ∈ ls, s.placed l = true) : (s.suspended ls).arbiterLaw := by
  obtain ⟨order, queue, supply, -⟩ := suspended_lists ls s fun l mem => row_of_placed (placed l mem)
  have alarm : (s.suspended ls).alarmEntry = s.alarmEntry := funext fun m => alarmEntry_withdrawAll ls m s
  have out : ∀ m ∈ ls, (s.suspended ls).placed m = false ∧ (s.suspended ls).queued m = true := fun m mem => by
    obtain ⟨e, -, row, -⟩ := placed_iff.mp (placed m mem)
    have after : (s.suspended ls).row m = some e.suspendedEntry := by rw [row_suspended, if_pos mem, row]; rfl
    exact ⟨placed_of_unplaced after suspended_unplaced, queued_of_unplaced after suspended_unplaced⟩
  have rows : ∀ m, m ∉ ls → (s.suspended ls).row m = s.row m := fun m other => by rw [row_suspended, if_neg other]
  refine ⟨order ▸ law.placedOnce.filter _, ?_, fun m => ?_, fun m => ?_, ?_, fun m h => ?_⟩
  · rw [queue, (queueWith_perm ls s).nodup_iff]
    refine once.append law.queuedOnce fun m mem waits => ?_
    have queued := queued_iff.mp ((law.queueHeld m).mp waits)
    simp [placed m mem] at queued
  · by_cases mem : m ∈ ls
    · simp [order, mem, (out m mem).1]
    · simp [order, mem, placed_of_row (rows m mem), law.placedHeld m]
  · rw [queue, mem_queueWith]
    by_cases mem : m ∈ ls
    · simp [mem, (out m mem).2]
    · simp [mem, queued_of_row (rows m mem), law.queueHeld m]
  · rw [queue, queueWith_eq, alarm]
    exact pairwise_sections (fun m mem => (List.mem_filter.mp mem).2) fun m mem => by simpa using (List.mem_filter.mp mem).2
  · rw [supply]
    by_cases mem : m ∈ ls
    · simp [(out m mem).1] at h
    · exact law.supplyOn m (by rwa [placed_of_row (rows m mem)] at h)

theorem profileLaw.suspended (law : s.profileLaw) (ls : List LineNo) : (s.suspended ls).profileLaw := law.withdrawAll ls

end Sys2Proof.Machine.State
end

section
/-! The laws of the arbiter, of its entries and, where it is asked for, of its profile (R124, R126, R127, R131, R138,
R162), carried together through the work of the arbiter, of the calibrator and of the call controller: a request needs
the line free of an entry, and that it is free the entry law says. -/

namespace Sys2Proof.Machine

/-! ### The entry law, line by line -/

/-- A line is in the state of the owner of an entry, with a TEST entry's run in WAIT or RING (R124, R162). -/
def Entry.OwnedBy (e : Entry) (x : Line) : Prop :=
  match e.reqType with
  | .terminating => x.call = .termRing ∧ e.cls = .ordinary
  | .revert => x.call = .revertRing ∧ e.cls = .ordinary
  | .alarm => x.call = .alarmRing ∧ e.cls = .alarm
  | .test => x.call = .calibrating ∧ e.cls = .ordinary ∧ ∃ r, x.run = some r ∧ (r.phase = .wait ∨ r.phase = .ring)

/-- The entry law as it speaks of one line and its row (R124, R162). -/
structure Line.Owns (x : Line) (row : Option Entry) : Prop where
  entry : ∀ e, row = some e → e.OwnedBy x
  run : x.run ≠ none → x.call = .calibrating

/-- The call states in which a line may hold an entry or a run (R124, R162). -/
def CallState.engaged (c : CallState) : Prop := c = .termRing ∨ c = .revertRing ∨ c = .alarmRing ∨ c = .calibrating

theorem Entry.OwnedBy.engaged {e : Entry} {x : Line} (h : e.OwnedBy x) : x.call.engaged := by
  unfold Entry.OwnedBy at h
  unfold CallState.engaged
  cases type : e.reqType <;> simp only [type] at h <;> tauto

/-- Ownership depends on the call state and the run of the line, and on the class and the type of the entry. -/
theorem Entry.OwnedBy.of_same {e d : Entry} {x y : Line} (h : e.OwnedBy x) (call : y.call = x.call) (run : y.run = x.run)
    (cls : d.cls = e.cls) (type : d.reqType = e.reqType) : d.OwnedBy y := by
  unfold Entry.OwnedBy at h ⊢
  rwa [call, run, cls, type]

/-- The placement of a TEST entry takes its run to RING, where it still owns it (R166). -/
theorem Entry.OwnedBy.placeEntry {e : Entry} {l : LineNo} {s : State} (h : e.OwnedBy (s.line l)) (φ : Nat) :
    e.OwnedBy ((s.placeEntry l e φ).line l) := by
  rw [State.line_placeEntry]
  split
  · next test =>
    simp only [Entry.OwnedBy, test.2] at h ⊢
    obtain ⟨call, cls, r, run, -⟩ := h
    simp [call, cls, run]
  · exact h

namespace Line.Owns

variable {x y : Line} {row : Option Entry}

theorem of_free (h : x.run = none) : x.Owns none := ⟨nofun, fun run => absurd h run⟩

theorem of_same (h : x.Owns row) (call : y.call = x.call) (run : y.run = x.run) : y.Owns row :=
  ⟨fun e held => (h.entry e held).of_same call run rfl rfl, fun some => by rw [call]; exact h.run (run ▸ some)⟩

/-- A run in CALIBRATING with no entry. -/
theorem of_run (h : x.call = .calibrating) : x.Owns none := ⟨nofun, fun _ => h⟩

end Line.Owns

namespace State

variable {s t : State} {l : LineNo}

theorem entryLaw_iff (s : State) : s.entryLaw ↔ ∀ l, (s.line l).Owns (s.row l) :=
  ⟨fun h l => ⟨h.1 l, h.2 l⟩, fun h => ⟨fun l => (h l).entry, fun l => (h l).run⟩⟩

theorem run_placeEntry {m : LineNo} {e : Entry} {φ : Nat} (h : ((s.placeEntry l e φ).line m).run ≠ none) :
    (s.line m).run ≠ none := by
  rw [line_placeEntry] at h
  split at h
  · next same => simpa [same.1] using h
  · exact h

/-- The line holds no entry and no run. -/
def free (s : State) (l : LineNo) : Prop := s.row l = none ∧ (s.line l).run = none

theorem entryLaw.owns (law : s.entryLaw) (l : LineNo) : (s.line l).Owns (s.row l) := (entryLaw_iff s).mp law l

/-- Work of one line is judged on that line. -/
theorem entryLaw.of_local (law : s.entryLaw) (work : Local l s t) (owns : (t.line l).Owns (t.row l)) : t.entryLaw :=
  (entryLaw_iff t).mpr fun m => by
    by_cases same : m = l
    · exact same ▸ owns
    · rw [work.line m same, work.row m same]
      exact law.owns m

/-- Out of the states that hold an entry or a run a line is free. -/
theorem entryLaw.free (law : s.entryLaw) (h : ¬(s.line l).call.engaged) : s.free l := by
  have owns := law.owns l
  constructor
  · cases row : s.row l with
    | none => rfl
    | some e => exact absurd (owns.entry e row).engaged h
  · by_contra run
    exact h (.inr (.inr (.inr (owns.run run))))

/-- An entry in CALIBRATING has a run (R124). -/
theorem entryLaw.row_of_run (law : s.entryLaw) (call : (s.line l).call = .calibrating) (run : (s.line l).run = none) :
    s.row l = none := by
  cases row : s.row l with
  | none => rfl
  | some e =>
    have owned := (law.owns l).entry e row
    unfold Entry.OwnedBy at owned
    cases type : e.reqType <;> simp [type, call, run] at owned

/-- A run in LEAK has no entry yet (R164, R165). -/
theorem entryLaw.row_of_leak (law : s.entryLaw) {r : Run} (run : (s.line l).run = some r) (leak : r.phase = .leak) :
    s.row l = none := by
  cases row : s.row l with
  | none => rfl
  | some e =>
    have owned := (law.owns l).entry e row
    have call := (law.owns l).run (by simp [run])
    unfold Entry.OwnedBy at owned
    cases type : e.reqType <;> simp [type, call, run, leak] at owned

/-- The laws of the arbiter, the entries and, where `P` asks for it, the profile (R124, R126, R127, R131, R138, R162). -/
structure supplyLaws (P : Prop) (s : State) : Prop where
  arbiter : s.arbiterLaw
  entries : s.entryLaw
  profile : P → s.profileLaw

namespace supplyLaws

variable {P : Prop}

/-! ### Work that leaves the table alone -/

theorem of_table (h : s.supplyLaws P) (table : SameTable s t) (entries : t.entryLaw) : t.supplyLaws P :=
  ⟨h.arbiter.of_same table, entries, fun p => (h.profile p).of_same table⟩

/-- Work that leaves the table and the lines alone. -/
theorem beside (h : s.supplyLaws P) (table : SameTable s t) (lines : t.lines = s.lines) : t.supplyLaws P :=
  h.of_table table ((entryLaw_iff t).mpr fun l => by
    rw [table.row, show t.line l = s.line l from congrArg (·.get l) lines]
    exact h.entries.owns l)

/-- Work of a free line that leaves the table alone: into whatever call state, the line owns what it holds, nothing. -/
theorem of_free (h : s.supplyLaws P) (free : s.free l) (work : Rests l s t) : t.supplyLaws P := by
  obtain ⟨row, run⟩ := free
  refine h.of_table work.table (h.entries.of_local work.local_ ?_)
  rw [work.table.row, row]
  exact .of_free (work.run.trans run)

/-- Work of a line that leaves its call state alone. -/
theorem of_call (h : s.supplyLaws P) (work : Rests l s t) (call : (t.line l).call = (s.line l).call) : t.supplyLaws P :=
  h.of_table work.table (h.entries.of_local work.local_ (by
    rw [work.table.row]
    exact (h.entries.owns l).of_same call work.run))

/-- An update of a line that touches neither its call state nor its run. -/
theorem edit (h : s.supplyLaws P) (l : LineNo) (f : Line → Line)
    (call : (f (s.line l)).call = (s.line l).call := by rfl) (run : (f (s.line l)).run = (s.line l).run := by rfl) :
    (s.updLine l f).supplyLaws P := h.of_call (.updLine l f run) (by simpa using call)

theorem mark (h : s.supplyLaws P) (k : ReportKind) (e : Fin 17) (d : List Byte) : (s.mark k e d).supplyLaws P :=
  h.beside (.of_eq (mark_arb ..) (mark_cadence ..)) (mark_lines ..)

/-- A line with no entry whose run changes, in CALIBRATING (R162). -/
theorem setRun (h : s.supplyLaws P) (row : s.row l = none) (call : (s.line l).call = .calibrating) (r : Run) :
    (s.updLine l fun x => { x with run := some r }).supplyLaws P :=
  h.of_table (.of_eq rfl rfl) (h.entries.of_local (.updLine l _) (by
    rw [row_updLine, row]
    exact .of_run (by simpa using call)))

/-- A line with no entry whose run ends. -/
theorem endRun (h : s.supplyLaws P) (row : s.row l = none) (f : Line → Line) (run : (f (s.line l)).run = none) :
    (s.updLine l f).supplyLaws P :=
  h.of_table (.of_eq rfl rfl) (h.entries.of_local (.updLine l _) (by
    rw [row_updLine, row]
    exact .of_free (by simpa using run)))

/-- Operations that keep the laws, one after another. -/
theorem foldl {α : Type} (f : State → α → State) (keeps : ∀ {u : State}, u.supplyLaws P → ∀ a, (f u a).supplyLaws P)
    (as : List α) (h : s.supplyLaws P) : (as.foldl f s).supplyLaws P := by
  induction as generalizing s with
  | nil => exact h
  | cons a as ih => exact ih (keeps h a)

theorem standbyEvent (h : s.supplyLaws P) (ev : StandbyEvent) : (s.standbyEvent ev).supplyLaws P :=
  h.beside (.standbyEvent ..) (Tab.ext_get fun l => line_standbyEvent ev l s)

/-! ### Requests, removals and the ends of runs -/

theorem removeEntry (h : s.supplyLaws P) (l : LineNo) : (s.removeEntry l).supplyLaws P :=
  ⟨h.arbiter.removeEntry l, h.entries.of_local (.removeEntry l) (by
    rw [row_removeEntry, line_removeEntry]
    exact ⟨nofun, (h.entries.owns l).run⟩), fun p => (h.profile p).removeEntry l⟩

/-- Out of CALIBRATING a line is free once its entry is removed (R162). -/
theorem free_removeEntry (h : s.supplyLaws P) (call : (s.line l).call ≠ .calibrating) : (s.removeEntry l).free l := by
  refine ⟨row_removeEntry l s, ?_⟩
  rw [line_removeEntry]
  by_contra run
  exact call ((h.entries.owns l).run run)

/-- A request for a line that holds no entry, in the state of its owner (R124, R125). -/
theorem request (h : s.supplyLaws P) {e : Entry} (row : s.row l = none) (waits : e.state = .waiting)
    (owned : e.OwnedBy (s.line l)) : (s.request l e).supplyLaws P := by
  have unplaced : ∀ φ, e.state ≠ .placed φ := fun φ placed => by simp [waits] at placed
  refine ⟨h.arbiter.request row unplaced, h.entries.of_local (.request l e) ?_, fun p => (h.profile p).request row unplaced⟩
  have own : e.OwnedBy ((s.request l e).line l) ∧ (((s.request l e).line l).run ≠ none → (s.line l).run ≠ none) := by
    rw [request_eq]
    rcases tryAdmission_cases l e (s.asked l e) with ⟨φ, -, -, placed⟩ | ⟨-, joined⟩
    · have asks : e.OwnedBy ((s.asked l e).line l) := by simpa [asked] using owned
      rw [placed]
      exact ⟨asks.placeEntry φ, fun run => by simpa [asked] using run_placeEntry run⟩
    · rw [joined, joinWaiting_eq]
      simpa [asked] using owned
  have call : ((s.request l e).line l).call = (s.line l).call := by rw [line_request_self]
  refine ⟨fun d held => ?_, fun run => call.trans ((h.entries.owns l).run (own.2 run))⟩
  rcases row_request l e s with new | ⟨φ, new⟩ <;> cases new.symm.trans held
  · exact own.1
  · exact own.1.of_same rfl rfl rfl rfl

/-- The failure of a run takes the run and the entry of the line (R172). -/
theorem failRun (h : s.supplyLaws P) (l : LineNo) (c : CalCause) : (s.failRun l c).supplyLaws P := by
  cases run : (s.line l).run with
  | none => rwa [failRun_of_none c run]
  | some r =>
    have removed := h.removeEntry l
    rw [← failRun_removed c run, failRun_of_some c (row_removeEntry l s) (by rw [line_removeEntry, run])]
    exact (removed.endRun (row_removeEntry l s) (fun x =>
      { x with calStatus := .failed, calCause := some c, run := none }) rfl).mark _ _ _

/-- A line whose run has failed is free, unless it holds an entry of a call. -/
theorem free_failRun (h : s.supplyLaws P) (c : CalCause) (call : (s.line l).call = .calibrating) : (s.failRun l c).free l := by
  cases run : (s.line l).run with
  | none =>
    rw [failRun_of_none c run]
    exact ⟨h.entries.row_of_run call run, run⟩
  | some r => exact ⟨row_failRun_of_run c run, by rw [line_failRun_of_run c run]⟩

theorem failToIdle (h : s.supplyLaws P) (l : LineNo) (c : CalCause) : (s.failToIdle l c).supplyLaws P := by
  cases run : (s.line l).run with
  | none => simpa [State.failToIdle, run] using h
  | some r =>
    rw [failToIdle_of_run c run]
    exact (h.failRun l c).of_free (h.free_failRun c ((h.entries.owns l).run (by simp [run]))) (.enter ..)

/-! ### Calibration -/

theorem completeRun (h : s.supplyLaws P) (row : s.row l = none) (r : Run) (loads : Tab 4 Nat) (t : Nat) :
    (s.completeRun l r loads t).supplyLaws P := by
  have ended := h.endRun row (fun x =>
    { x with loads := loads, tripThreshold := t, calStatus := .done, calCause := none, run := none }) rfl
  exact ended.of_free ⟨row, by simp⟩ (((Rests.writeBaseline ..).trans (.markLine ..)).trans (.enter ..))

theorem computeRun (h : s.supplyLaws P) (row : s.row l = none) (call : (s.line l).call = .calibrating) (r : Run) :
    (s.computeRun l r).supplyLaws P := by
  unfold State.computeRun
  split
  · exact (h.setRun row call _).failToIdle l _
  · exact h.completeRun row _ _ _

theorem beginWait (h : s.supplyLaws P) (row : s.row l = none) (call : (s.line l).call = .calibrating) (f : Channel) :
    (s.beginWait l f).supplyLaws P := by
  unfold State.beginWait
  split
  · exact h
  · next r _ =>
    have waits := h.setRun row call (r.waiting f (s.requestLoad l f))
    dsimp only
    split
    · exact waits.failToIdle l _
    · exact waits.request row rfl ⟨by simpa using call, rfl, r.waiting f (s.requestLoad l f), by simp, .inl rfl⟩

theorem burstEnd (h : s.supplyLaws P) (l : LineNo) (n ac dc : Nat) : (s.burstEnd l n ac dc).supplyLaws P := by
  unfold State.burstEnd
  split
  · exact h
  · next r run =>
    have removed := h.removeEntry l
    have call : ((s.removeEntry l).line l).call = .calibrating := by
      rw [line_removeEntry]
      exact (h.entries.owns l).run (by simp [run])
    have taken := fun q => removed.setRun (row_removeEntry l s) call q
    dsimp only
    split
    · exact removed.failToIdle l _
    · split
      · exact (taken _).beginWait (row_removeEntry l s) (by simpa using call) _
      · exact (taken _).computeRun (row_removeEntry l s) (by simpa using call) _

theorem calWaitCount (h : s.supplyLaws P) (l : LineNo) : (s.calWaitCount l).supplyLaws P := by
  unfold State.calWaitCount
  split
  · exact h
  · next r run =>
    split
    · exact h
    · exact h
    · next wait =>
      have counted : (s.updLine l fun x => { x with run := some { r with waitCount := r.waitCount + 1 } }).supplyLaws P := by
        refine h.of_table (.of_eq rfl rfl) (h.entries.of_local (.updLine l _) ?_)
        have owns := h.entries.owns l
        refine ⟨fun e held => ?_, fun _ => by simpa using owns.run (by simp [run])⟩
        have owned := owns.entry e held
        unfold Entry.OwnedBy at owned ⊢
        cases type : e.reqType <;> simp_all
      dsimp only
      split
      · exact counted.failToIdle l _
      · exact counted

theorem leakScan (h : s.supplyLaws P) (l : LineNo) (reading : Nat) : (s.leakScan l reading).supplyLaws P := by
  unfold State.leakScan
  split
  · exact h
  · next r run =>
    split
    · exact h
    · exact h
    · next leak =>
      have row := h.entries.row_of_leak run leak
      have call := (h.entries.owns l).run (by simp [run])
      have added := h.setRun row call { r with leakScans := r.leakScans + 1, leakSum := r.leakSum + reading }
      dsimp only
      split
      · exact added
      · split
        · exact added.failToIdle l _
        · split
          · exact added
          · exact (added.setRun row (by simpa using call) _).beginWait row (by simpa using call) _

/-! ### Lifts and reverting calls -/

theorem originate (h : s.supplyLaws P) (free : s.free l) : (s.originate l).supplyLaws P := h.of_free free (.originate ..)

theorem calibrationLift (h : s.supplyLaws P) (call : (s.line l).call = .calibrating) (m : Manner) :
    (s.calibrationLift l m).supplyLaws P := by
  have failed := h.failRun l .offhook
  have free := h.free_failRun .offhook call
  unfold State.calibrationLift
  cases m
  · exact failed.of_free free (Rests.trans (.updLine l _) (.originate ..))
  · exact failed.originate free

theorem revertHangup (h : s.supplyLaws P) (call : (s.line l).call = .revertTone) : (s.revertHangup l).supplyLaws P := by
  have free := h.entries.free (l := l) (by simp [call, CallState.engaged])
  unfold State.revertHangup
  split
  · exact h.of_free free (.endCall ..)
  · exact (h.of_free free (.enter l .revertRing s)).request (by rw [row_enter]; exact free.1) rfl
      ⟨by rw [line_enter], rfl⟩

theorem answer (h : s.supplyLaws P) (call : (s.line l).call ≠ .calibrating) (m : Manner) : (s.answer l m).supplyLaws P :=
  (h.removeEntry l).of_free (h.free_removeEntry call) (((Rests.updRecord ..).trans (.markAnswer ..)).trans (.enter ..))

theorem alarmAnswer (h : s.supplyLaws P) (call : (s.line l).call ≠ .calibrating) (m : Manner) :
    (s.alarmAnswer l m).supplyLaws P := by
  have removed := h.removeEntry l
  have free := h.free_removeEntry call
  unfold State.alarmAnswer
  cases m
  · exact removed.of_free free (Rests.trans (Rests.trans (Rests.trans (.updRecord ..) (.updLine l _)) (.markAnswer ..))
      (.enterExchWait ..))
  · exact removed.of_free free (((Rests.updRecord ..).trans (.markAnswer ..)).trans (.enterExchWait ..))

theorem revertLift (h : s.supplyLaws P) (call : (s.line l).call ≠ .calibrating) (m : Manner) :
    (s.revertLift l m).supplyLaws P :=
  (h.removeEntry l).of_free (h.free_removeEntry call) (Rests.trans (.updLine l _) (.enter ..))

theorem lift (h : s.supplyLaws P) (l : LineNo) (m : Manner) : (s.lift l m).supplyLaws P := by
  unfold State.lift
  split
  · next call => exact h.answer (by simp [call]) m
  · next call => exact h.alarmAnswer (by simp [call]) m
  · next call => exact h.revertLift (by simp [call]) m
  · next call => exact h.calibrationLift call m
  all_goals exact h

/-! ### Hook items -/

theorem callOffHook (h : s.supplyLaws P) (l : LineNo) : (s.callOffHook l).supplyLaws P := by
  unfold State.callOffHook
  split
  · next idle => exact h.originate (h.entries.free (by simp [idle, CallState.engaged]))
  · exact h.lift l _

theorem callOnHook (h : s.supplyLaws P) (l : LineNo) : (s.callOnHook l).supplyLaws P := by
  unfold State.callOnHook
  split
  case h_7 call => exact h.revertHangup call
  case h_1 call | h_2 call | h_3 call | h_4 call =>
    exact h.of_free (h.entries.free (by simp [call, CallState.engaged])) (.endCall ..)
  case h_5 call | h_6 call => exact h.of_free (h.entries.free (by simp [call, CallState.engaged])) (.enter ..)
  all_goals exact h

theorem callDigit (h : s.supplyLaws P) (l : LineNo) (d : Digit) : (s.callDigit l d).supplyLaws P := by
  unfold State.callDigit
  split
  · next call => exact h.of_free (h.entries.free (by simp [call, CallState.engaged])) (.dialDigit ..)
  · exact h.edit l _
  · exact mark (h.edit l _) _ _ _
  all_goals exact h

theorem callDigitError (h : s.supplyLaws P) (l : LineNo) : (s.callDigitError l).supplyLaws P := by
  unfold State.callDigitError
  split
  · next call => exact h.of_free (h.entries.free (by simp [call, CallState.engaged])) (.endCall ..)
  · exact h.edit l _
  · exact mark (h.edit l _) _ _ _
  all_goals exact h

theorem handItem (h : s.supplyLaws P) (l : LineNo) (i : HookItem) : (s.handItem l i).supplyLaws P := by
  cases i with
  | offHook => exact h.callOffHook l
  | onHook => exact h.callOnHook l
  | digit d => exact (h.callDigit l d).standbyEvent _
  | digitError => exact (h.callDigitError l).standbyEvent _
  | flash =>
    simp only [State.handItem, State.callFlash]
    split
    · exact h.mark _ _ _
    · exact h
  | pulse =>
    simp only [State.handItem, State.callPulse]
    split
    · exact h.edit l _
    · exact h

/-! ### Party tests, timers and alarms -/

theorem handResult (h : s.supplyLaws P) (l : LineNo) (res : TestResult) : (s.handResult l res).supplyLaws P := by
  unfold State.handResult
  split
  · next call => exact h.of_free (h.entries.free (by simp [call, CallState.engaged])) (.identify ..)
  · next call => exact h.of_free (h.entries.free (by simp [call, CallState.engaged])) (.revertResult ..)
  all_goals exact h

/-- The end of a call that rings: its entry goes, and the line goes to IDLE (R79, R81, R85). -/
theorem endRinging (h : s.supplyLaws P) (call : (s.line l).call ≠ .calibrating) (new : CallState) (c : EndCause) :
    ((s.removeEntry l).endCall l new c).supplyLaws P :=
  (h.removeEntry l).of_free (h.free_removeEntry call) (.endCall ..)

theorem expiry (h : s.supplyLaws P) (l : LineNo) : (s.expiry l).supplyLaws P := by
  unfold State.expiry
  split
  case h_3 call | h_4 call => exact h.endRinging (by simp [call]) _ _
  case h_1 call | h_2 call | h_6 call =>
    exact h.of_free (h.entries.free (by simp [call, CallState.engaged])) (.endCall ..)
  case h_5 call => exact h.of_free (h.entries.free (by simp [call, CallState.engaged])) (.enter ..)
  all_goals exact h

theorem callTimerStep (h : s.supplyLaws P) (l : LineNo) : (s.callTimerStep l).supplyLaws P := by
  unfold State.callTimerStep
  split
  · exact h
  · split
    · exact (h.edit l _).expiry l
    · exact h.edit l _

theorem startAlarm (h : s.supplyLaws P) (idle : (s.line l).call = .idle) (v : Voice) (n : Nat) :
    (s.startAlarm l v n).supplyLaws P := by
  have free := h.entries.free (l := l) (by simp [idle, CallState.engaged])
  let rung := ((s.openCall l (Record.opened .alarm s.stamp)).updLine l fun x =>
    { x with alarmPending := none, alarmCount := n }).enter l .alarmRing
  have opened : Rests l s rung := Rests.trans (Rests.trans (.updLine l _) (.updLine l _)) (.enter ..)
  exact (h.of_free free opened).request (opened.table.row l ▸ free.1) rfl ⟨by rw [line_enter], rfl⟩

theorem pendingAlarmStep (h : s.supplyLaws P) (l : LineNo) : (s.pendingAlarmStep l).supplyLaws P := by
  unfold State.pendingAlarmStep
  split
  · next idle _ =>
    split
    · exact h.startAlarm idle _ _
    · exact mark (h.edit l _) _ _ _
  · exact h

theorem alarmCountStep (h : s.supplyLaws P) (l : LineNo) : (s.alarmCountStep l).supplyLaws P := by
  unfold State.alarmCountStep
  split
  · next call =>
    have counted := h.edit l fun x => { x with alarmCount := (s.line l).alarmCount - 1 }
    dsimp only
    split
    · exact counted.endRinging (by simp [call]) _ _
    · exact counted
  · exact h

/-! ### Disabling and enabling -/

theorem disableLine (h : s.supplyLaws P) (l : LineNo) : (s.disableLine l).supplyLaws P := by
  have failed := (h.removeEntry l).failRun l .canceled
  have removed := row_removeEntry l s
  have free : ((s.removeEntry l).failRun l .canceled).free l :=
    ⟨row_failRun _ removed, by rw [line_failRun _ removed]⟩
  unfold State.disableLine
  exact failed.of_free free (Rests.trans (Rests.trans (.updLine l _) (.endCall ..)) (.updLine l _))

theorem enableLine (h : s.supplyLaws P) (l : LineNo) : (s.enableLine l).supplyLaws P := by
  unfold State.enableLine
  split
  · next off =>
    exact h.of_free (h.entries.free (by simp [off, CallState.engaged])) (Rests.trans (.updLine l _) (.enter ..))
  · exact h

end supplyLaws

end State

end Sys2Proof.Machine
end

section
/-! The same laws through suspensions and the arbiter's work at a frame boundary (R132 to R136, R140, R141), scans (R41) and
the works of a step event (R31). -/

namespace Sys2Proof.Machine.State

variable {s t : State} {l : LineNo}

namespace supplyLaws

variable {P : Prop}

/-! ### Suspension -/

/-- The lines suspended in one event own their entries as before: a suspension touches neither call states nor runs. -/
theorem suspended (h : s.supplyLaws P) {ls : List LineNo} (once : ls.Nodup) (placed : ∀ l ∈ ls, s.placed l = true) :
    (s.suspended ls).supplyLaws P := by
  refine ⟨h.arbiter.suspended once placed, (entryLaw_iff _).mpr fun m => ?_, fun p => (h.profile p).suspended ls⟩
  have owns := h.entries.owns m
  have line : ((s.suspended ls).line m).call = (s.line m).call ∧ ((s.suspended ls).line m).run = (s.line m).run := by
    rw [line_suspended]
    split <;> exact ⟨rfl, rfl⟩
  refine ⟨fun d held => ?_, fun run => line.1.trans (owns.run (line.2 ▸ run))⟩
  rw [row_suspended] at held
  split at held
  · obtain ⟨e, row, rfl⟩ := Option.map_eq_some_iff.mp held
    exact (owns.entry e row).of_same line.1 line.2 rfl rfl
  · exact (owns.entry d held).of_same line.1 line.2 rfl rfl

theorem markSuspended (h : s.supplyLaws P) (cause : SuspendCause) (l : LineNo) : (s.markSuspended cause l).supplyLaws P := by
  unfold State.markSuspended
  split
  · exact h
  · exact h.mark _ _ _

theorem suspensionNotice (h : s.supplyLaws P) (l : LineNo) : (s.suspensionNotice l).supplyLaws P := by
  unfold State.suspensionNotice
  split
  · exact h
  · split
    · exact h.failToIdle l _
    · exact h

theorem suspendMany (h : s.supplyLaws P) {ls : List LineNo} (once : ls.Nodup) (placed : ∀ l ∈ ls, s.placed l = true)
    (cause : SuspendCause) : (s.suspendMany ls cause).supplyLaws P :=
  foldl _ (fun k l => k.suspensionNotice l) ls (foldl _ (fun k l => k.markSuspended cause l) ls (h.suspended once placed))

theorem evict (h : s.supplyLaws P) : s.evict.supplyLaws P :=
  h.suspendMany (h.arbiter.placedOnce.filter _)
    (fun l mem => (h.arbiter.placedHeld l).mp (List.mem_filter.mp mem).1) .capacity

theorem assertFault (h : s.supplyLaws P) (c : Channel) : (s.assertFault c).supplyLaws P := by
  have set : (s.updArb fun a => { a with faults := a.faults ||| channelBit c }).supplyLaws P :=
    h.beside ⟨rfl, rfl, rfl, rfl, id, rfl⟩ rfl
  unfold State.assertFault
  exact mark (set.suspendMany (set.arbiter.placedOnce.filter _)
    (fun l mem => (set.arbiter.placedHeld l).mp (List.mem_filter.mp mem).1) _) _ _ _

theorem releaseFault (h : s.supplyLaws P) (c : Channel) : (s.releaseFault c).supplyLaws P :=
  mark (h.beside (t := s.updArb fun a => { a with faults := a.faults &&& ~~~(channelBit c) })
    ⟨rfl, rfl, rfl, rfl, id, rfl⟩ rfl) _ _ _

/-! ### The other parts of a boundary's work -/

theorem warmUp (h : s.supplyLaws P) : s.warmUp.supplyLaws P := by
  unfold State.warmUp
  split
  · exact h
  · exact h
  · split
    · exact mark (h.beside (t := s.updArb fun a => { a with supply := .on, warmUpCount := 0, standbyCount := a.standbyFrames })
        ⟨rfl, rfl, rfl, rfl, fun _ => rfl, rfl⟩ rfl) _ _ _
    · exact h.beside ⟨rfl, rfl, rfl, rfl, id, rfl⟩ rfl

/-- The placement of an entry that waits or is suspended, with the supply ON (R129). -/
theorem placeEntry (h : s.supplyLaws P) {e : Entry} (row : s.row l = some e) (queued : s.queued l = true)
    (on : s.arb.supply = .on) (φ : Nat) : (s.placeEntry l e φ).supplyLaws P := by
  have rows : ∀ m, m ≠ l → (s.placeEntry l e φ).row m = s.row m := fun m other => by rw [row_placeEntry, if_neg other]
  have placed : (s.placeEntry l e φ).row l = some (e.placedAt φ) := by rw [row_placeEntry, if_pos rfl]
  refine ⟨h.arbiter.of_placed placed rfl rows ?_ ?_ ?_, h.entries.of_local (.placeEntry l e φ) ?_,
    fun p => (h.profile p).placeEntry rfl rfl (fun _ _ => rfl) (queued_iff.mp queued).2 e φ⟩
  · rw [placeEntry_arb]
  · rw [placeEntry_arb]
  · rw [placeEntry_arb, on]
  · have owns := h.entries.owns l
    have call : ((s.placeEntry l e φ).line l).call = (s.line l).call := by
      rw [line_placeEntry]
      split <;> rfl
    rw [placed]
    refine ⟨fun d held => ?_, fun run => call.trans (owns.run (run_placeEntry run))⟩
    cases held
    exact ((owns.entry e row).placeEntry φ).of_same rfl rfl rfl rfl

theorem walk (h : s.supplyLaws P) (on : s.arb.supply = .on) {ls : List LineNo} (once : ls.Nodup)
    (queued : ∀ l ∈ ls, s.queued l = true) : (s.walk ls).supplyLaws P := by
  induction ls generalizing s with
  | nil => exact h
  | cons l ls ih =>
    obtain ⟨first, rest⟩ := List.nodup_cons.mp once
    have later := fun m mem => queued m (List.mem_cons_of_mem l mem)
    unfold State.walk
    split
    · exact ih h on rest later
    · next e row =>
      split
      · exact ih h on rest later
      · split
        · exact h
        · next φ _ =>
          refine ih (h.placeEntry row (queued l List.mem_cons_self) on φ) (by rw [placeEntry_arb, on]) rest fun m mem => ?_
          rw [queued_of_row (s := s) (by rw [row_placeEntry, if_neg (ne_of_mem_of_not_mem mem first)])]
          exact later m mem

theorem walkQueue (h : s.supplyLaws P) : s.walkQueue.supplyLaws P := by
  unfold State.walkQueue
  split
  · next on => exact h.walk on h.arbiter.queuedOnce fun l mem => (h.arbiter.queueHeld l).mp mem
  · exact h

/-- A row rewritten with its class, its type and its state (R134). -/
theorem rewrite (h : s.supplyLaws P) {e d : Entry} (row : s.row l = some e) (cls : d.cls = e.cls)
    (type : d.reqType = e.reqType) (state : d.state = e.state) (a : d.voiceA = e.voiceA) (b : d.voiceB = e.voiceB) :
    (s.setRow l (some d)).supplyLaws P := by
  have placed : ∀ m, (s.setRow l (some d)).placed m = s.placed m := fun m => by
    by_cases same : m = l
    · have held : (s.setRow l (some d)).row l = some d := by simp
      rw [same, Bool.eq_iff_iff, placed_iff, placed_iff]
      simp [held, row, state]
    · exact placed_of_row (by simp [same])
  have some' : ∀ m, (s.setRow l (some d)).row m ≠ none ↔ s.row m ≠ none := fun m => by
    by_cases same : m = l <;> simp [same, row]
  refine ⟨h.arbiter.of_shapes placed (fun m => ?_) (fun m => ?_) rfl rfl id, h.entries.of_local (.setRow l _) ?_,
    fun p => (h.profile p).of_loads rfl fun c cs m => ?_⟩
  · rw [Bool.eq_iff_iff, queued_iff, queued_iff, placed, some']
  · by_cases same : m = l
    · rw [same, alarmEntry_of_some row, alarmEntry_of_some (e := d) (by simp), Entry.isAlarm, cls]
      rfl
    · exact alarmEntry_of_row (by simp [same])
  · have owns := h.entries.owns l
    refine ⟨fun x held => ?_, owns.run⟩
    rw [row_setRow, if_pos rfl] at held
    cases held
    exact (owns.entry e row).of_same rfl rfl cls type
  · by_cases same : m = l
    · rw [same]
      unfold loadOf loadAt voiceOn Entry.voiceInUse
      simp only [row_setRow, if_pos, row, state, a, b]
      rfl
    · exact loadOf_of_row (s := s) (t := s.setRow l (some d)) (by simp [same]) rfl c cs

theorem countWait (h : s.supplyLaws P) (l : LineNo) : (s.countWait l).supplyLaws P := by
  unfold State.countWait
  split
  · exact h
  · next e row =>
    dsimp only
    split
    · exact mark (h.rewrite row (d := { e with waited := min 255 (e.waited + 1), delayed := true }) rfl rfl rfl rfl rfl) _ _ _
    · exact h.rewrite row rfl rfl rfl rfl rfl

/-- The supply goes to STANDBY only when the table is empty (R140). -/
theorem standbyCounting (h : s.supplyLaws P) (b : Bool) : (s.standbyCounting b).supplyLaws P := by
  unfold State.standbyCounting
  split
  · next falls =>
    split
    · have unplaced : ∀ l, s.placed l = false := fun l => by
        simp only [Arbiter.standbyFalls, Arbiter.empty, Bool.and_eq_true, List.all_eq_true] at falls
        exact placed_of_none (by simpa [row] using falls.1.2 l (mem_lineNos l))
      have law := h.arbiter
      refine mark (s := s.updArb fun a => { a with supply := .standby, standbyCount := 0 }) ⟨?_, h.entries, fun p => ?_⟩ _ _ _
      · refine ⟨law.placedOnce, law.queuedOnce, law.placedHeld, law.queueHeld, law.alarmsFirst, fun l on => ?_⟩
        have placed : s.placed l = true := on
        simp [unplaced l] at placed
      · exact (h.profile p).of_loads rfl fun _ _ _ => loadOf_of_row rfl rfl _ _
    · exact h.beside ⟨rfl, rfl, rfl, rfl, id, rfl⟩ rfl
  · exact h

theorem setBoundary (h : s.supplyLaws P) (b : Option Boundary) : State.supplyLaws P { s with boundary := b } :=
  h.beside (.of_eq rfl rfl) rfl

theorem runStage (h : s.supplyLaws P) (b : Boundary) : (s.runStage b).supplyLaws P := by
  unfold State.runStage
  split
  · exact (h.setBoundary _).evict
  · exact (h.setBoundary _).warmUp
  · exact (h.setBoundary _).walkQueue
  · exact foldl _ (fun k l => k.countWait l) _ (h.setBoundary _)
  · exact (h.setBoundary _).standbyCounting _

theorem runUpTo (h : s.supplyLaws P) (g : Stage) (n : Nat) : (s.runUpTo g n).supplyLaws P := by
  induction n generalizing s with
  | zero => exact h
  | succ n ih =>
    unfold State.runUpTo
    split
    · exact h
    · split
      · exact ih (h.runStage _)
      · exact h

/-! ### Scans -/

theorem loopScan (h : s.supplyLaws P) (l : LineNo) (r : Reading) : (s.loopScan l r).supplyLaws P := by
  have tested : (s.testScan l r).supplyLaws P := by
    unfold State.testScan
    dsimp only
    split
    · exact h.edit l _
    · exact (h.edit l _).handResult l _
  have rung : ∀ p, (s.ringScan l r p).supplyLaws P := fun p => by
    unfold State.ringScan
    dsimp only
    split
    · exact (h.edit l _).lift l _
    · exact h.edit l _
  have hooked : (s.hookScan l r).supplyLaws P := foldl _ (fun k i => k.handItem l i) _ (h.edit l _)
  unfold State.loopScan
  dsimp only
  split
  · exact tested
  · split
    · next p _ =>
      split
      · exact rung p
      · split
        · exact h
        · exact hooked
    · split
      · exact h
      · exact hooked

theorem trackScan (h : s.supplyLaws P) (l : LineNo) (judged : Bool) (reading : Nat) :
    (s.trackScan l judged reading).supplyLaws P := by
  refine h.of_call (.trackScan l judged reading s) ?_
  unfold State.trackScan State.writeBaseline State.markLineFault
  dsimp only
  split
  · split
    · simp
    · split <;> simp
  · simp

theorem fittedScan (h : s.supplyLaws P) (l : LineNo) (r : Reading) : (s.fittedScan l r).supplyLaws P :=
  ((h.loopScan l r).trackScan l _ _).leakScan l _

theorem scanLine (h : s.supplyLaws P) (l : LineNo) (r : Reading) : (s.scanLine l r).supplyLaws P := by
  have counted : (s.countScan l).supplyLaws P := h.beside (.of_eq rfl rfl) rfl
  unfold State.scanLine
  dsimp only
  split
  · split
    · exact counted.fittedScan l r
    · exact disableLine (mark (counted.edit l fun x =>
        { x with fitted := false, opts := withoutEnabled x.opts, track := Tracking.empty }) _ _ _) l
  · have seen := counted.edit l fun x => { x with presentSeen := true, fitted := r.present, track := Tracking.empty }
    unfold State.unfittedScan
    dsimp only
    split
    · exact seen.mark _ _ _
    · exact seen

/-! ### The works of a step event -/

theorem ringStep (h : s.supplyLaws P) (l : LineNo) : (s.ringStep l).supplyLaws P := by
  unfold State.ringStep
  split
  · exact h
  · split
    · unfold State.playStep State.endBurst
      dsimp only
      split
      · split
        · exact (h.edit l _).burstEnd l _ _ _
        · exact h.edit l _
      · split <;> exact h.edit l _
    all_goals exact h

theorem activation (h : s.supplyLaws P) (l : LineNo) : (s.activation l).supplyLaws P := by
  unfold State.activation
  split
  · exact mark (h.edit l fun x => { x with active := x.staged, commitPending := false }) _ _ _
  · exact h

theorem doWork (h : s.supplyLaws P) (w : Work) : (s.doWork w).supplyLaws P := by
  cases w with
  | activation l => exact h.activation l
  | alarmCount l => exact h.alarmCountStep l
  | calWait l => exact h.calWaitCount l
  | arbiter => exact (h.setBoundary _).runUpTo _ _
  | callTimer l => exact h.callTimerStep l
  | pendingAlarm l => exact h.pendingAlarmStep l
  | ring l => exact h.ringStep l

theorem hold (h : s.supplyLaws P) (w : Work) : (s.hold w).supplyLaws P := by
  cases w <;> exact h.beside (.of_eq rfl rfl) rfl

theorem takeDue (h : s.supplyLaws P) (w : Work) : (s.takeDue w).supplyLaws P :=
  doWork (s := { s with due := s.due.erase w }) (h.beside (.of_eq rfl rfl) rfl) w

theorem stepTime (h : s.supplyLaws P) (first held : List Work) : (s.stepTime first held).supplyLaws P := by
  have begun : State.supplyLaws P { s with due := [] } := h.beside (.of_eq rfl rfl) rfl
  have settled : s.settleDue.supplyLaws P := (foldl _ (fun k w => k.doWork w) s.due begun).runUpTo _ _
  have moved : (s.settleDue.updTimebase fun t => t.advance.1).supplyLaws P := settled.beside (.of_eq rfl rfl) rfl
  have advanced : s.settleDue.advanceTimebase.supplyLaws P := by
    unfold State.advanceTimebase
    dsimp only
    split
    · exact moved
    · exact moved.mark _ _ _
  exact foldl _ (fun k w => k.doWork w) _ (foldl _ (fun k w => k.hold w) _ advanced)

end supplyLaws

end Sys2Proof.Machine.State
end

section
/-! The same laws through the commands of the host, the link and every event (R124, R126, R127, R131, R138, R162). -/

namespace Sys2Proof.Machine

namespace State.supplyLaws

variable {P : Prop} {s : State}

/-! ### Commands of the host -/

theorem forLines (f : LineNo → State → State × Status)
    (keeps : ∀ l (u : State), u.supplyLaws P → (f l u).1.supplyLaws P) (ls : List LineNo) (h : s.supplyLaws P) :
    (Machine.forLines f ls s).1.supplyLaws P :=
  forLines_relates (R := fun s t => s.supplyLaws P → t.supplyLaws P) (fun _ => id) (fun k m => m ∘ k)
    (fun l u => keeps l u) ls s h

theorem lineOptionsAt (f : WriteForm) (v : BitVec 4) (l : LineNo) (u : State) (h : u.supplyLaws P) :
    (Machine.lineOptionsAt f v l u).1.supplyLaws P := by
  have taken := h.edit l fun x => { x with opts := f.apply (u.line l).opts v }
  unfold Machine.lineOptionsAt State.takeOptions
  dsimp only
  split
  · split
    · exact taken.enableLine l
    · split
      · exact taken.disableLine l
      · exact taken
  · exact h

theorem lineLockAt (l : LineNo) (u : State) (h : u.supplyLaws P) : (Machine.lineLockAt l u).1.supplyLaws P := by
  unfold Machine.lineLockAt
  split
  · exact h
  · exact h.edit l fun x => { x with lock := true }

theorem alarmRingAt (n : Nat) (l : LineNo) (u : State) (h : u.supplyLaws P) :
    (Machine.alarmRingAt n l u).1.supplyLaws P := by
  unfold Machine.alarmRingAt
  split
  · exact h
  · split
    · exact h
    · split
      · next idle => exact h.startAlarm idle _ _
      · exact h.edit l fun x => { x with alarmPending := some n }

theorem alarmStopAt (l : LineNo) (u : State) (h : u.supplyLaws P) : (Machine.alarmStopAt l u).1.supplyLaws P := by
  have cleared := h.edit l fun x => { x with alarmPending := none }
  unfold Machine.alarmStopAt
  dsimp only
  split
  · next call => exact cleared.endRinging (by simp [call]) _ _
  · split
    · exact cleared
    · exact h

theorem ringAccepted (h : s.supplyLaws P) {l : LineNo} (idle : (s.line l).call = .idle) (i : Slot) (e : PartyEntry) (n : Nat) :
    (s.ringAccepted l i e n).supplyLaws P := by
  have free := h.entries.free (l := l) (by simp [idle, CallState.engaged])
  have rung : Rests l s (((s.openCall l { Record.opened .terminated s.stamp with called := some i }).enter l .termRing).updLine l
      fun x => { x with timer := some (s.noAnswerCount n) }) :=
    Rests.trans (Rests.trans (.updLine l _) (.enter ..)) (.updLine l _)
  exact (h.of_free free rung).request (rung.table.row l ▸ free.1) rfl ⟨by simp [line_enter], rfl⟩

theorem carryRingParty (h : s.supplyLaws P) (p : List Byte) : (s.carryRingParty p).1.supplyLaws P := by
  unfold State.carryRingParty
  split
  · exact h
  · next l i _ =>
    simp only [State.ringParty, State.refuse, State.refuseAs, State.ok, apply_ite Prod.fst]
    split_ifs with _ _ idle
    · exact h
    · exact h
    · exact h
    · exact h
    · exact h
    · exact h.ringAccepted (not_not.mp idle) _ _ _

theorem carryConnect (h : s.supplyLaws P) (p : List Byte) : (s.carryConnect p).1.supplyLaws P := by
  unfold State.carryConnect
  dsimp only
  split
  · next call => exact h.of_free (h.entries.free (by simp [call, CallState.engaged])) (.connectLine ..)
  · exact h

theorem carryLineRelease (h : s.supplyLaws P) (p : List Byte) : (s.carryLineRelease p).1.supplyLaws P := by
  unfold State.carryLineRelease
  dsimp only
  split
  · exact h
  · next out =>
    have call : (s.line (lineAt p 0)).call ≠ .calibrating := fun call => out (by simp [call, CallState.holdsOut])
    unfold State.releaseLine
    exact (h.removeEntry _).of_free (h.free_removeEntry call) (Rests.trans (.updLine _ _) (.endCall ..))

theorem carryTestAccess (h : s.supplyLaws P) (p : List Byte) : (s.carryTestAccess p).1.supplyLaws P := by
  unfold State.carryTestAccess
  dsimp only
  split
  · next call =>
    exact h.of_free (h.entries.free (by rcases call with call | call <;> simp [call, CallState.engaged]))
      (Rests.trans (.updLine _ _) (.enter ..))
  · exact h

theorem carryTestRelease (h : s.supplyLaws P) (p : List Byte) : (s.carryTestRelease p).1.supplyLaws P := by
  unfold State.carryTestRelease
  dsimp only
  split
  · next call =>
    exact h.of_free (h.entries.free (by simp [call, CallState.engaged])) (Rests.trans (.updLine _ _) (.enter ..))
  · exact h

/-- A calibration opens with its run in LEAK, where it holds no entry yet (R163, R164). -/
theorem openRun (h : s.supplyLaws P) {l : LineNo} (idle : (s.line l).call = .idle) (r : Run) :
    (s.openRun l r).supplyLaws P := by
  have free := h.entries.free (l := l) (by simp [idle, CallState.engaged])
  unfold State.openRun
  refine h.of_table (SameTable.trans (t := s.updLine l _) (.of_eq rfl rfl) (Rests.enter l ..).table)
    (h.entries.of_local ((Local.updLine l _).trans (.enter l _)) ?_)
  rw [row_enter, row_updLine, free.1]
  exact .of_run (by rw [line_enter])

theorem carryCalibrate (h : s.supplyLaws P) (p : List Byte) : (s.carryCalibrate p).1.supplyLaws P := by
  unfold State.carryCalibrate
  dsimp only
  split
  · exact h
  · split
    · next idle => exact h.openRun idle _
    · exact h

theorem carryRingCancel (h : s.supplyLaws P) (p : List Byte) : (s.carryRingCancel p).1.supplyLaws P := by
  unfold State.carryRingCancel
  dsimp only
  split
  · next call => exact h.endRinging (by simp [call]) _ _
  · exact h

theorem carryReject (h : s.supplyLaws P) (p : List Byte) : (s.carryReject p).1.supplyLaws P := by
  unfold State.carryReject
  dsimp only
  split
  · next call => exact h.of_free (h.entries.free (by simp [call, CallState.engaged])) (.endCall ..)
  · exact h

theorem carryDisconnect (h : s.supplyLaws P) (p : List Byte) : (s.carryDisconnect p).1.supplyLaws P := by
  unfold State.carryDisconnect
  dsimp only
  split
  · next call => exact h.of_free (h.entries.free (by simp [call, CallState.engaged])) (.endCall ..)
  · exact h

theorem carryCalibrateCancel (h : s.supplyLaws P) (p : List Byte) : (s.carryCalibrateCancel p).1.supplyLaws P := by
  unfold State.carryCalibrateCancel
  dsimp only
  split
  · exact h.failToIdle _ _
  · exact h

/-- A pattern that no entry names is rewritten: no load of an entry changes (R26 to R28, R126). -/
theorem setPattern (h : s.supplyLaws P) {k : PatternNo} (unnamed : ∀ l, s.entryNames k l = false)
    (segs : Option (List Segment)) (b : EditBuffer) :
    State.supplyLaws P { s with cadence := s.cadence.set k segs, edit := b } := by
  refine ⟨h.arbiter.of_shapes (fun _ => rfl) (fun _ => rfl) (fun _ => rfl) rfl rfl id, h.entries, fun p =>
    (h.profile p).of_loads rfl fun c cs l => ?_⟩
  unfold loadOf
  cases row : s.row l with
  | none => simp [show State.row { s with cadence := s.cadence.set k segs, edit := b } l = none from row]
  | some e =>
    have other : ∀ q, (e.voiceInUse q).pattern ≠ k := fun q used => by
      have free := unnamed l
      simp only [entryNames, row, Entry.names, Bool.or_eq_false_iff, beq_eq_false_iff_ne] at free
      unfold Entry.voiceInUse at used
      cases voice : e.voiceB <;> simp only [voice] at used free
      · exact free.1 used
      · split at used
        · exact free.1 used
        · exact (beq_eq_false_iff_ne.mp free.2) used
    have voice : ∀ φ cs, State.voiceOn { s with cadence := s.cadence.set k segs, edit := b } e φ cs = s.voiceOn e φ cs :=
      fun φ cs => by
        unfold voiceOn patternOn
        dsimp only
        rw [Tab.get_set_ne _ _ (other _)]
    rw [show State.row { s with cadence := s.cadence.set k segs, edit := b } l = some e from row]
    simp only [loadAt, voice]

theorem carryCadenceStore (h : s.supplyLaws P) (p : List Byte) : (s.carryCadenceStore p).1.supplyLaws P := by
  unfold State.carryCadenceStore
  split
  · exact h
  · split
    · exact h
    · split
      · exact h
      · split
        · exact h
        · next unnamed => exact h.setPattern (find_line_none.mp unnamed) _ _

theorem carryCadenceClear (h : s.supplyLaws P) (p : List Byte) : (s.carryCadenceClear p).1.supplyLaws P := by
  unfold State.carryCadenceClear
  dsimp only
  split
  · exact h
  · next unused =>
    refine h.setPattern (fun l => ?_) none s.edit
    have free := find_line_none.mp unused l
    simp only [lineReferences, Bool.or_eq_false_iff] at free
    exact free.2

/-- After a soft reset no line holds an entry or a run (R147, R174). -/
theorem softReset (s : State) : s.softReset.supplyLaws P := by
  have row : ∀ l, s.softReset.row l = none := fun l => Tab.get_fill _ _
  have run : ∀ l, (s.softReset.line l).run = none := fun l => by
    simp only [State.softReset, line, Tab.get_build, Line.softReset, Line.runReset]
    cases run : (s.lines.get l).run <;> simp [run]
  have order : s.softReset.arb.placedOrder = [] := rfl
  have queue : s.softReset.arb.waitQueue = [] := rfl
  refine ⟨⟨List.nodup_nil, List.nodup_nil, fun l => ?_, fun l => ?_, List.Pairwise.nil, fun l on => ?_⟩,
    (entryLaw_iff _).mpr fun l => by rw [row]; exact .of_free (run l), fun _ c cs => ?_⟩
  · simp [order, placed_of_none (row l)]
  · simp [queue, queued_of_none (row l)]
  · simp [placed_of_none (row l)] at on
  · have unloaded : s.softReset.loadOf c cs.val = fun _ => 0 := funext fun l =>
      loadOf_of_unplaced (placed_of_none (row l)) c cs.val
    have profile : s.softReset.arb.profile = Tab.fill (Tab.fill 0) := rfl
    simp [unloaded, profile]

/-- Carrying out a command keeps the laws. -/
theorem carry (h : s.supplyLaws P) (c : HostCmd) (p : List Byte) : (s.carry c p).1.supplyLaws P := by
  cases c <;> simp only [State.carry]
  case softReset => exact softReset s
  case timebaseSet =>
    unfold State.carryTimebaseSet
    dsimp only
    split
    · exact h
    · exact mark (h.beside (t := s.updTimebase fun t => t.withRole (Role.ofCode (byteAt p 0))) (.of_eq rfl rfl) rfl) _ _ _
  case lineOptions => exact forLines _ (lineOptionsAt _ _) _ h
  case lineLock => exact forLines _ lineLockAt _ h
  case alarmRing => exact forLines _ (alarmRingAt _) _ h
  case alarmStop => exact forLines _ alarmStopAt _ h
  case ringParty => exact h.carryRingParty p
  case ringCancel => exact h.carryRingCancel p
  case connect => exact h.carryConnect p
  case reject => exact h.carryReject p
  case disconnect => exact h.carryDisconnect p
  case lineRelease => exact h.carryLineRelease p
  case testAccess => exact h.carryTestAccess p
  case testRelease => exact h.carryTestRelease p
  case calibrate => exact h.carryCalibrate p
  case calibrateCancel => exact h.carryCalibrateCancel p
  case cadenceStore => exact h.carryCadenceStore p
  case cadenceClear => exact h.carryCadenceClear p
  case partyWrite | alarmIdentity | planDiscard | lineLevels | lineLoads =>
    simp only [State.carryPartyWrite, State.carryAlarmIdentity, State.carryPlanDiscard, State.carryLineLevels,
      State.carryLineLoads]
    split
    · exact h
    · dsimp only [ok]
      exact h.edit _ _
  case planCommit =>
    unfold State.carryPlanCommit
    dsimp only
    split
    · exact h
    · split
      · exact h
      · split
        · exact h
        · dsimp only [ok]
          exact h.edit _ _
  case arbiterRead | numberingSet | cadencePut | cadenceRead =>
    simp only [State.carryArbiterRead, State.carryNumberingSet, State.carryCadencePut, State.carryCadenceRead]
    repeat' split
    all_goals exact h.beside (.of_eq rfl rfl) rfl
  all_goals exact h.beside ⟨rfl, rfl, rfl, rfl, id, rfl⟩ rfl

/-! ### The link -/

theorem updLink (h : s.supplyLaws P) (f : Link → Link) : (s.updLink f).supplyLaws P := h.beside (.of_eq rfl rfl) rfl

theorem answerFrame (h : s.supplyLaws P) (f : Frame) : (s.answerFrame f).1.supplyLaws P := by
  unfold State.answerFrame State.judge
  split
  · exact h
  · dsimp only
    split
    · split
      · exact h
      · exact h.carry _ _
    · exact h

theorem dispatch (h : s.supplyLaws P) (n : Nat) : (s.dispatch n).supplyLaws P := by
  induction n generalizing s with
  | zero => exact h
  | succ n ih =>
    unfold State.dispatch
    split
    · exact h
    · split
      · exact ih (((h.updLink _).answerFrame _).updLink _)
      · exact h

theorem transmit (h : s.supplyLaws P) : s.transmit.supplyLaws P := by
  unfold State.transmit State.choose
  split
  · exact h
  · split
    · exact h.updLink _
    · split
      · exact h
      · unfold State.sendReport State.chosen
        split
        · split
          · exact (h.updLink _).edit _ _
          · exact h.updLink _
        · exact (h.updLink _).updLink _
        all_goals exact h.updLink _

theorem settleLink (h : s.supplyLaws P) : s.settleLink.supplyLaws P := ((h.dispatch _).transmit).dispatch _

theorem linkFault (h : s.supplyLaws P) (c : LinkFault) : (s.linkFault c).supplyLaws P := (h.updLink _).mark _ _ _

theorem offer (h : s.supplyLaws P) (f : Frame) : (s.offer f).supplyLaws P := by
  unfold State.offer
  split
  · exact h.updLink _
  · exact h.linkFault _

theorem receive (h : s.supplyLaws P) (b : Byte) : (s.receive b).supplyLaws P := by
  have taken := h.updLink fun k => { k with receiver := (s.link.receiver.take b).1 }
  unfold State.receive State.takeReceived
  dsimp only
  split
  · exact taken
  · exact taken.offer _
  · exact taken.linkFault _

theorem gapExpiry (h : s.supplyLaws P) : s.gapExpiry.supplyLaws P := by
  unfold State.gapExpiry
  split
  · exact (h.updLink _).linkFault _
  · exact h

theorem takeOwed (h : s.supplyLaws P) (l : LineNo) : (s.takeOwed l).supplyLaws P := by
  unfold State.takeOwed
  split
  · exact (h.stepTime _ _).settleLink
  · exact h

/-! ### Events -/

theorem finish (h : s.supplyLaws P) : ∀ u, Machine.finish s = .next u → u.supplyLaws P := by
  rintro u ⟨⟩
  exact h.settleLink

theorem occurring (h : s.supplyLaws P) (b : Bool) (f : State → State) (keeps : (f s).supplyLaws P) :
    ∀ u, Machine.occurring b f s = .next u → u.supplyLaws P := by
  unfold Machine.occurring
  split
  · exact keeps.finish
  · rintro u ⟨⟩
    exact h

theorem scanning (h : s.supplyLaws P) (finds : State → Bool) (l : LineNo) (r : Reading) :
    ∀ u, Machine.scanning finds l r s = .next u → u.supplyLaws P := by
  unfold Machine.scanning
  split
  · exact ((h.takeOwed l).scanLine l r).finish
  · rintro u ⟨⟩
    exact h

end State.supplyLaws

/-- Every event keeps the laws of the arbiter, the entries and the profile. -/
theorem exec_supplyLaws {P : Prop} (i : Instr) (s t : State) (law : s.supplyLaws P) (h : exec i s = .next t) :
    t.supplyLaws P := by
  cases i <;> simp only [exec, execOffHook, execOnHook, execDigitComplete, execPartyTestResult,
    execTrackingWindowClose, execRingTrip, execLeakComplete, execFsyncPulse] at h
  case hardReset straps =>
    cases h
    have reset : State.reset.supplyLaws P := ⟨reset_arbiterLaw, reset_entryLaw, fun _ => reset_profileLaw⟩
    exact reset.beside (.of_eq rfl rfl) rfl
  case badKind kind tag p => exact law.occurring _ _ (law.offer _) t h
  case byteReceived b good => exact law.occurring _ _ (law.receive b) t h
  case gap => exact law.occurring _ _ law.gapExpiry t h
  case frameSent => exact law.occurring _ State.frameDone (law.updLink _) t h
  case scan l r => exact ((law.takeOwed l).scanLine l r).finish t h
  case offHook l r => exact law.scanning _ l r t h
  case onHook l r => exact law.scanning _ l r t h
  case digitComplete l r => exact law.scanning _ l r t h
  case partyTestResult l r => exact law.scanning _ l r t h
  case trackingWindowClose l r => exact law.scanning _ l r t h
  case ringTrip l r => exact law.scanning _ l r t h
  case leakComplete l r => exact law.scanning _ l r t h
  case stepEvent first held => exact law.occurring _ _ (law.stepTime first held) t h
  case followerWindowUnmet first held => exact law.occurring _ _ (law.stepTime first held) t h
  case fsyncPulse => exact (law.beside (t := s.updTimebase Timebase.pulse) (.of_eq rfl rfl) rfl).finish t h
  case callTimerExpiry l => exact law.occurring _ _ (law.takeDue _) t h
  case pendingAlarmStart l => exact law.occurring _ _ (law.takeDue _) t h
  case alarmCountEnd l => exact law.occurring _ _ (law.takeDue _) t h
  case planActivation l => exact law.occurring _ _ (law.takeDue _) t h
  case calibrationWaitLimit l => exact law.occurring _ _ (law.takeDue _) t h
  case eviction => exact law.occurring _ _ (law.runUpTo _ _) t h
  case warmUpEnd => exact law.occurring _ _ (law.runUpTo _ _) t h
  case queueWalk => exact law.occurring _ _ (law.runUpTo _ _) t h
  case ringDelayed l => exact law.occurring _ _ (law.runUpTo _ _) t h
  case standbyTimeout => exact law.occurring _ _ (law.runUpTo _ _) t h
  case faultAssertion c => exact law.occurring _ _ (law.assertFault c) t h
  case faultRelease c => exact law.occurring _ _ (law.releaseFault c) t h
  case firstFaultSample inputs =>
    exact law.occurring _ (State.updArb fun a => { a with faults := inputs, faultSampled := true })
      (law.beside ⟨rfl, rfl, rfl, rfl, id, rfl⟩ rfl) t h
  all_goals exact (law.offer _).finish t h

/-- Every step keeps the laws. -/
theorem step_supplyLaws {P : Prop} {s t : State} (law : s.supplyLaws P) (h : step s = .next t) : t.supplyLaws P := by
  unfold step at h
  split at h
  · cases h
    exact law
  · next rest _ => exact exec_supplyLaws _ _ _ (law.beside (t := s.withPending rest) (.of_eq rfl rfl) rfl) h

end Sys2Proof.Machine

open Sys2Proof Sys2Proof.Machine

/-- Settles O58: every event keeps the two laws together, with the profile's left aside. -/
theorem arbiterLawsAreKept : Obligations.ArbiterLawsAreKept := fun _ _ arbiter entries h =>
  have kept := step_supplyLaws (P := False) ⟨arbiter, entries, False.elim⟩ h
  ⟨kept.arbiter, kept.entries⟩

/-- Settles O59: every event keeps the three laws together. -/
theorem profileIsTheSumOfLoads : Obligations.ProfileIsTheSumOfLoads := fun _ _ arbiter entries profile h =>
  (step_supplyLaws (P := True) ⟨arbiter, entries, fun _ => profile⟩ h).profile trivial
end

section
/-! A request and its admission (R125, R128 to R131, R139): what the admission finds, and how it leaves the table, the
lists, the profile and the supply. -/

namespace Sys2Proof.Machine.State

variable {s t : State} {l : LineNo} {e : Entry} {φ : Nat}

/-- The admission search depends on the profile, the settings of the arbiter, the timebase and the cadence table (R128). -/
theorem search_of_same (profile : t.arb.profile = s.arb.profile) (arb : t.arb.given = s.arb.given)
    (given : t.given = s.given) (e : Entry) : t.search e = s.search e := by
  have caps : t.arb.caps = s.arb.caps := congrArg (·.1) arb
  have faults : t.arb.faults = s.arb.faults := congrArg (·.2.1) arb
  have base : t.arb.phaseBase = s.arb.phaseBase := congrArg (·.2.2.2.1) arb
  have stride : t.arb.stride = s.arb.stride := congrArg (·.2.2.2.2.1) arb
  have cadence : t.cadence = s.cadence := congrArg (·.2.1) given
  unfold search fits stepFits capacity voiceOn patternOn Arbiter.candidates Arbiter.faulted
  rw [profile, caps, faults, base, stride, cadence, timebase_of_given given]

/-- The arbiter with a request written and its REQUEST event taken (R125, R139). -/
theorem asked_arb (l : LineNo) (e : Entry) (s : State) : (s.asked l e).arb =
    { s.arb with
      rows := s.arb.rows.set l (some e)
      standbyCount := if s.arb.reloadMask.getLsbD 2 then s.arb.standbyFrames else s.arb.standbyCount
      supply := if s.arb.supply = .standby then .warming else s.arb.supply
      warmUpCount := if s.arb.supply = .standby then s.arb.warmUpFrames else s.arb.warmUpCount } := by
  have reloaded := reloadStandby_arb .request (s.setRow l (some e))
  unfold asked standbyEvent wakeSupply markSupply Arbiter.wakes
  dsimp only
  by_cases standby : s.arb.supply = .standby
  · simp [reloaded, standby]
    rfl
  · simp [reloaded, standby]
    rfl

theorem asked_kept (l : LineNo) (e : Entry) (s : State) : Kept s (s.asked l e) :=
  (Kept.setRow l (some e)).trans (Kept.standbyEvent .request)

theorem search_asked (l : LineNo) (e d : Entry) (s : State) : (s.asked l e).search d = s.search d :=
  search_of_same (by rw [asked_arb]) (asked_kept l e s).arb (asked_kept l e s).given d

/-- The condition for an immediate search does not know of the entry that asks for it (R130). -/
theorem immediate_asked_iff (outside : l ∉ s.arb.waitQueue) (e : Entry) : (s.asked l e).immediate e.cls = true ↔
    s.arb.supply = .on ∧ (match e.cls with
      | .ordinary => s.arb.waitQueue = []
      | .alarm => ∀ m ∈ s.arb.waitQueue, s.alarmEntry m = false) := by
  have on : (s.asked l e).arb.supply = .on ↔ s.arb.supply = .on := by
    rw [asked_arb]
    cases s.arb.supply <;> simp
  unfold immediate
  rw [Bool.and_eq_true, beq_iff_eq, on, (asked_table l e s).waitQueue, (sections_asked outside).1]
  refine and_congr_right fun _ => ?_
  cases e.cls with
  | ordinary => exact List.isEmpty_iff
  | alarm => simp [alarmSection, List.filter_eq_nil_iff]

/-- A request takes the standby event whatever becomes of its admission (R139). -/
theorem request_supply (l : LineNo) (e : Entry) (s : State) : (s.request l e).arb.supply = (s.asked l e).arb.supply
    ∧ (s.request l e).arb.warmUpCount = (s.asked l e).arb.warmUpCount
    ∧ (s.request l e).arb.standbyCount = (s.asked l e).arb.standbyCount := by
  rw [request_eq]
  rcases tryAdmission_cases l e (s.asked l e) with ⟨φ, -, -, placed⟩ | ⟨-, joined⟩
  · rw [placed, placeEntry_arb]
    exact ⟨rfl, rfl, rfl⟩
  · rw [joined, joinWaiting_eq]
    exact ⟨rfl, rfl, rfl⟩

end Sys2Proof.Machine.State

open Sys2Proof Sys2Proof.Machine

/-- Settles O50: the admission is the one that the request's own state calls for, and finds the line in neither list. -/
theorem requestsAreAdmittedOrQueued : Obligations.RequestsAreAdmittedOrQueued := by
  intro l e s waiting waited delayed fresh law
  have outside := law.unqueued (State.queued_of_none fresh)
  have unplaced := law.unplaced (State.placed_of_none fresh)
  have immediate := State.immediate_asked_iff outside e
  have search := State.search_asked l e e s
  obtain ⟨supply, warmUp, standby⟩ := State.request_supply l e s
  rw [State.asked_arb] at supply warmUp standby
  dsimp only
  refine ⟨supply, warmUp, standby, (Local.request l e).row, fun φ at_once found => ?_, fun not_found => ?_⟩
  · have placed : s.request l e = (s.asked l e).placeEntry l e φ := by
      simp only [State.request_eq, State.tryAdmission, immediate.mpr at_once, search, found, if_true]
    rw [placed, State.row_placeEntry, State.placeEntry_arb, State.asked_arb, if_pos rfl]
    refine ⟨by rw [Entry.placedAt, ← waited, ← delayed], ?_, ?_, fun c cs => ?_⟩
    · simp [filter_ne_of_not_mem unplaced]
    · simp [filter_ne_of_not_mem outside]
    · have table := State.asked_table l e s
      simp only [State.profileWith_get, table.profile, State.loadAt_of_cadence table.cadence]
      rfl
  · have joined : s.request l e = (s.asked l e).joinWaiting l := by
      rw [State.request_eq]
      rcases State.tryAdmission_cases l e (s.asked l e) with ⟨φ, at_once, found, -⟩ | ⟨-, joined⟩
      · rw [immediate] at at_once
        rw [search] at found
        rcases not_found with later | unfit
        · exact absurd at_once later
        · simp [unfit] at found
      · exact joined
    have queue := State.waitQueue_joined (e := e) outside
    have row : ((s.asked l e).joinWaiting l).row l = some e := by
      rw [State.joinWaiting_eq]
      exact (State.row_asked l l e s).trans (if_pos rfl)
    rw [joined]
    refine ⟨row, ?_, ?_, fun ordinary => ?_, fun alarm => ?_⟩
    · rw [State.joinWaiting_eq]
      exact (State.asked_table l e s).placedOrder
    · rw [State.joinWaiting_eq]
      exact (State.asked_table l e s).profile
    · simp [queue, Entry.isAlarm, ordinary]
    · simp [queue, Entry.isAlarm, alarm, State.alarmSection, State.ordinarySection]
end

section
/-! The queue walk (R133): the lines that it passes over, the placements that it makes and the line at which it stops; and
what placements made one after another leave (R129, R131, R134, R144). -/

namespace Sys2Proof.Machine.State

variable {s t u : State} {l m : LineNo} {e : Entry} {φ : Nat} {ps : List (LineNo × Nat)}

/-! ### One placement -/

/-- A placement that ends a suspension or a reported wait is reported RESUMED (R129, R144). -/
theorem placeEntry_marked (h : e.resumes = true) (l : LineNo) (φ : Nat) (s : State) :
    (s.placeEntry l e φ).marked s.link.mask .ring l
      ([lineByte l, 2, 0, 0xFF, e.reqType.code, 0, 0, 0] ++ stampBytes s.stamp) := by
  have noticed : ∀ v : State, ((v.placementNotice l e).leftQueue l).link = v.link
      ∧ ((v.placementNotice l e).leftQueue l).stamp = v.stamp := fun v => by
    unfold placementNotice
    split <;> exact ⟨rfl, rfl⟩
  unfold placeEntry
  rw [if_pos h]
  obtain ⟨link, stamp⟩ := noticed (s.updArb _)
  refine fun on => ⟨?_, mark_pending_self _ _ _ _ (by rwa [link])⟩
  refine (mark_slot_self _ _ _ _ (by rwa [link])).trans ?_
  rw [stamp]
  rfl

/-- Any other placement marks no report (R129). -/
theorem placeEntry_link (h : e.resumes = false) (l : LineNo) (φ : Nat) (s : State) : (s.placeEntry l e φ).link = s.link := by
  unfold placeEntry
  rw [if_neg (by simp [h])]
  unfold placementNotice
  split <;> rfl

theorem resumes_iff (e : Entry) : e.resumes = true ↔ e.state = .suspended ∨ e.delayed = true := by
  simp [Entry.resumes]

/-! ### Placements one after another -/

/-- The entries that lines hold in `s` placed at offsets, one after another (R129). -/
def placeAll (s : State) (ps : List (LineNo × Nat)) (u : State) : State :=
  ps.foldl (fun v p => match s.row p.1 with
    | none => v
    | some e => v.placeEntry p.1 e p.2) u

theorem placeAll_append (ps qs : List (LineNo × Nat)) (u : State) :
    s.placeAll (ps ++ qs) u = s.placeAll qs (s.placeAll ps u) := List.foldl_append

theorem placeAll_cons (row : s.row l = some e) (φ : Nat) (ps : List (LineNo × Nat)) (u : State) :
    s.placeAll ((l, φ) :: ps) u = s.placeAll ps (u.placeEntry l e φ) := by
  simp [placeAll, row]

/-- What each placement keeps, placements one after another keep. -/
theorem placeAll_relates {R : State → State → Prop} (refl : ∀ v, R v v) (trans : ∀ {v w x}, R v w → R w x → R v x)
    (h : ∀ p ∈ ps, ∀ e v, R v (v.placeEntry p.1 e p.2)) (u : State) : R u (s.placeAll ps u) := by
  induction ps generalizing u with
  | nil => exact refl u
  | cons p ps ih =>
    have rest := fun v => ih (fun q mem => h q (List.mem_cons_of_mem p mem)) v
    unfold placeAll at rest ⊢
    rw [List.foldl_cons]
    split
    · exact rest _
    · exact trans (h p List.mem_cons_self _ _) (rest _)

theorem placeAll_kept (ps : List (LineNo × Nat)) (u : State) : Kept u (s.placeAll ps u) :=
  placeAll_relates .refl .trans (fun _ _ _ _ => .placeEntry _ _ _) u

/-- The placements of other lines leave a line, its row and its reports as they are. -/
theorem placeAll_apart (other : l ∉ ps.map Prod.fst) (u : State) : Apart l u (s.placeAll ps u) := by
  refine placeAll_relates (.refl l) .trans (fun p mem e v => ?_) u
  have away : l ≠ p.1 := fun same => other (same ▸ List.mem_map_of_mem mem)
  exact .of_local (Kept.placeEntry ..) (Local.placeEntry ..) (Unmarked.placeEntry _ _ away) away

/-- The placement of one line among others (R129). -/
theorem placeAll_at {before later : List (LineNo × Nat)} (row : s.row l = some e)
    (once : ((before ++ (l, φ) :: later).map Prod.fst).Nodup) (u : State) :
    ∃ v, Apart l u v ∧ Apart l (v.placeEntry l e φ) (s.placeAll (before ++ (l, φ) :: later) u) := by
  rw [List.map_append, List.map_cons] at once
  have ahead : l ∉ before.map Prod.fst := fun mem => List.disjoint_of_nodup_append once mem List.mem_cons_self
  have behind : l ∉ later.map Prod.fst := (List.nodup_cons.mp once.of_append_right).1
  rw [placeAll_append, placeAll_cons row]
  exact ⟨s.placeAll before u, placeAll_apart ahead u, placeAll_apart behind _⟩

/-- The lists, the supply and the boundary's work after placements of queued lines (R129, R131, R134). -/
theorem placeAll_lists (held : ∀ p ∈ ps, s.row p.1 ≠ none) (once : (ps.map Prod.fst).Nodup) (u : State)
    (unplaced : ∀ p ∈ ps, p.1 ∉ u.arb.placedOrder) :
    (s.placeAll ps u).arb.placedOrder = u.arb.placedOrder ++ ps.map Prod.fst
      ∧ (s.placeAll ps u).arb.waitQueue = u.arb.waitQueue.filter (fun l => !(ps.map Prod.fst).contains l)
      ∧ (s.placeAll ps u).arb.supply = u.arb.supply
      ∧ (s.placeAll ps u).boundary = u.boundary.map fun b =>
          { b with stood := b.stood.filter fun l => !(ps.map Prod.fst).contains l } := by
  induction ps generalizing u with
  | nil => simp [placeAll]
  | cons p ps ih =>
    obtain ⟨l, φ⟩ := p
    obtain ⟨e, row⟩ := Option.ne_none_iff_exists'.mp (held _ List.mem_cons_self)
    obtain ⟨first, rest⟩ := List.nodup_cons.mp once
    have fresh : l ∉ u.arb.placedOrder := unplaced _ List.mem_cons_self
    have order : (u.placeEntry l e φ).arb.placedOrder = u.arb.placedOrder ++ [l] := by
      rw [placeEntry_arb, filter_ne_of_not_mem fresh]
    have away : ∀ m, (m != l && !(ps.map Prod.fst).contains m) = !((l :: ps.map Prod.fst).contains m) := fun m => by simp [bne]
    obtain ⟨order', queue, supply, boundary⟩ := ih (fun q mem => held q (List.mem_cons_of_mem _ mem)) rest
      (u.placeEntry l e φ) fun q mem => by
        rw [order, List.mem_append, List.mem_singleton, not_or]
        exact ⟨unplaced q (List.mem_cons_of_mem _ mem), fun same => first (List.mem_map.mpr ⟨q, mem, same⟩)⟩
    rw [placeAll_cons row, List.map_cons]
    refine ⟨?_, ?_, ?_, ?_⟩
    · rw [order', order, List.append_assoc]
      rfl
    · rw [queue, placeEntry_arb, List.filter_filter]
      exact List.filter_congr fun m _ => by rw [Bool.and_comm, away]
    · rw [supply, placeEntry_arb]
    · rw [boundary, placeEntry_boundary, Option.map_map]
      refine congrArg (fun f => Option.map f u.boundary) (funext fun b => ?_)
      simp only [Function.comp_apply, Boundary.without, List.filter_filter, Boundary.mk.injEq, true_and, and_true]
      exact List.filter_congr fun m _ => by rw [Bool.and_comm, away]

/-! ### The walk -/

/-- The line's entry has a voice on a faulted channel (R133). -/
def faulty (s : State) (l : LineNo) : Bool :=
  match s.row l with
  | none => false
  | some e => channels.any fun c => e.uses c && s.arb.faults.getLsbD c.val

theorem faulty_of_some (h : s.row l = some e) : s.faulty l = s.needsFaulted e := by simp [faulty, h, needsFaulted, Arbiter.faulted]

/-- A walk along lines in their order, from `u`, for the entries that they hold in `s`: those in front passed over or
placed, each where its search finds, and the rest held back by the first whose search fails (R133). -/
structure Walked (s u : State) (front rest : List LineNo) (ps : List (LineNo × Nat)) : Prop where
  placed : ps.map Prod.fst = front.filter fun l => !s.faulty l
  found : ∀ before l φ later, ps = before ++ (l, φ) :: later → ∀ e, s.row l = some e →
    (s.placeAll before u).search e = some φ
  stopped : ∀ l tail, rest = l :: tail → s.faulty l = false ∧ ∀ e, s.row l = some e → (s.placeAll ps u).search e = none

/-- The walk's course (R133). -/
theorem walk_walked {ls : List LineNo} (held : ∀ l ∈ ls, s.row l ≠ none) (once : ls.Nodup) (u : State)
    (rows : ∀ l ∈ ls, u.row l = s.row l) (faults : u.arb.faults = s.arb.faults) :
    ∃ front rest ps, ls = front ++ rest ∧ s.Walked u front rest ps ∧ u.walk ls = s.placeAll ps u := by
  induction ls generalizing u with
  | nil => exact ⟨[], [], [], rfl, ⟨rfl, fun before => by simp, nofun⟩, rfl⟩
  | cons l ls ih =>
    obtain ⟨first, once⟩ := List.nodup_cons.mp once
    have held' := fun m mem => held m (List.mem_cons_of_mem l mem)
    have rows' := fun m mem => rows m (List.mem_cons_of_mem l mem)
    obtain ⟨e, row⟩ := Option.ne_none_iff_exists'.mp (held l List.mem_cons_self)
    have here : u.row l = some e := (rows l List.mem_cons_self).trans row
    have needs : u.needsFaulted e = s.faulty l := by
      rw [faulty_of_some row]
      simp only [needsFaulted, Arbiter.faulted, faults]
    cases faulty : s.faulty l with
    | true =>
      have walk : u.walk (l :: ls) = u.walk ls := by simp [State.walk, here, needs, faulty]
      obtain ⟨front, rest, ps, split, walked, course⟩ := ih held' once u rows' faults
      exact ⟨l :: front, rest, ps, by rw [split, List.cons_append], ⟨by simp [faulty, walked.placed], walked.found,
        walked.stopped⟩, walk.trans course⟩
    | false =>
      cases search : u.search e with
      | none =>
        have walk : u.walk (l :: ls) = u := by simp [State.walk, here, needs, faulty, search]
        refine ⟨[], l :: ls, [], rfl, ⟨rfl, fun before => by simp, fun m tail same => ?_⟩, walk⟩
        cases same
        exact ⟨faulty, fun d held => Option.some_inj.mp (row.symm.trans held) ▸ search⟩
      | some φ =>
        have walk : u.walk (l :: ls) = (u.placeEntry l e φ).walk ls := by
          simp [State.walk, here, needs, faulty, search]
        obtain ⟨front, rest, ps, split, walked, course⟩ := ih held' once (u.placeEntry l e φ)
          (fun m mem => by rw [row_placeEntry, if_neg (ne_of_mem_of_not_mem mem first), rows' m mem])
          (by rw [placeEntry_arb, faults])
        refine ⟨l :: front, rest, (l, φ) :: ps, by rw [split, List.cons_append], ⟨by simp [faulty, walked.placed], ?_, ?_⟩, ?_⟩
        · rintro (_ | ⟨p, before⟩) m ψ later same d held
          · cases same
            exact Option.some_inj.mp (row.symm.trans held) ▸ search
          · obtain ⟨rfl, tails⟩ := List.cons.inj same
            rw [placeAll_cons row]
            exact walked.found before m ψ later tails d held
        · rw [placeAll_cons row]
          exact walked.stopped
        · rw [walk, course, placeAll_cons row]

end Sys2Proof.Machine.State
end

section
/-! How the parts of a boundary's work are run one after another (R132; log 6), and the queue walk as the part that comes
next (R133). -/

namespace Sys2Proof.Machine.State

variable {s : State} {b : Boundary} {g : Stage}

/-! ### Runs of parts -/

theorem runThrough_none (h : s.boundary = none) : s.runThrough g = s := runUpTo_none 5 h

theorem runThrough_past (h : s.boundary = some b) (past : g.rank < b.next.rank) : s.runThrough g = s := runUpTo_past 5 h past

/-- The part after the one that was taken, in the boundary's work that is held afterwards. -/
theorem next_of_runStage {c : Boundary} (h : (s.runStage b).boundary = some c) : b.next.after = some c.next := by
  rw [← nextStage_runStage b s, nextStage, h, Option.map_some]

/-- A run through the part that comes next takes this part alone. -/
theorem runThrough_next (h : s.boundary = some b) : s.runThrough b.next = s.runStage b := by
  rw [runThrough, runUpTo_next 4 h (Nat.le_refl _)]
  cases rest : (s.runStage b).boundary with
  | none => exact runUpTo_none 4 rest
  | some c =>
    have rank := Stage.rank_after (next_of_runStage rest)
    exact runUpTo_past 4 rest (by omega)

/-- The part that comes next, taken by its command (log 6). -/
theorem stageAhead_next (h : s.boundary = some b) : s.stageAhead b.next = true := by simp [stageAhead, h]

theorem exec_queueWalk_next (h : s.boundary = some b) (next : b.next = .queueWalk) (on : s.arb.supply = .on) :
    exec .queueWalk s = .next (s.runStage b).settleLink := by
  have before : s.runThrough .warmUp = s := runThrough_past h (by rw [next]; decide)
  change occurring (s.stageAhead .queueWalk && (s.runThrough .warmUp).arb.supply == .on) (runThrough .queueWalk) s = _
  simp [occurring, finish, before, on, ← next, stageAhead_next h, runThrough_next h]

/-! ### What the walk's placements leave of a line -/

/-- A line that the walk places (R129, R144). -/
theorem placeAll_placed {before later : List (LineNo × Nat)} {l : LineNo} {e : Entry} {φ : Nat} (row : s.row l = some e)
    (once : ((before ++ (l, φ) :: later).map Prod.fst).Nodup) {u : State} (apart : Apart l s u) :
    let t := s.placeAll (before ++ (l, φ) :: later) u
    t.row l = some { e with state := .placed φ, waited := 0, delayed := false }
      ∧ t.line l = (if e.reqType = .test then
          { s.line l with run := (s.line l).run.map fun r => { r with phase := .ring } } else s.line l)
      ∧ ((e.state = .suspended ∨ e.delayed = true) → t.marked s.link.mask .ring l
          ([lineByte l, 2, 0, 0xFF, e.reqType.code, 0, 0, 0] ++ stampBytes s.stamp))
      ∧ (e.state ≠ .suspended → e.delayed = false →
          (t.link.slots.get (lineEntry l)).get 6 = (s.link.slots.get (lineEntry l)).get 6
            ∧ t.link.pendingSets.get (lineEntry l) = s.link.pendingSets.get (lineEntry l)) := by
  obtain ⟨v, ahead, behind⟩ := placeAll_at row once u
  have ahead : Apart l s v := apart.trans ahead
  refine ⟨?_, ?_, fun resumes => ?_, fun standing unreported => ?_⟩
  · rw [behind.row, row_placeEntry, if_pos rfl]
    rfl
  · rw [behind.line, line_placeEntry, ahead.line]
    simp
  · have marked := placeEntry_marked ((resumes_iff e).mpr resumes) l φ v
    rw [ahead.aside.mask, ahead.aside.stamp] at marked
    exact behind.unmarked.marked marked
  · have quiet : e.resumes = false := by
      rw [← Bool.not_eq_true, resumes_iff, not_or]
      exact ⟨standing, by simp [unreported]⟩
    have link := placeEntry_link quiet l φ v
    exact ⟨by rw [behind.unmarked.slots, link, ahead.unmarked.slots], by rw [behind.unmarked.sets, link, ahead.unmarked.sets]⟩

/-- The queue that a walk leaves: the lines that it passed over and those that it held back (R133). -/
theorem Walked.queue {front rest : List LineNo} {ps : List (LineNo × Nat)} {u : State} (h : s.Walked u front rest ps)
    (once : (front ++ rest).Nodup) :
    (front ++ rest).filter (fun l => !(ps.map Prod.fst).contains l) = front.filter s.faulty ++ rest := by
  rw [List.filter_append, h.placed]
  congr 1
  · refine List.filter_congr fun l mem => ?_
    simp [mem]
  · refine List.filter_eq_self.mpr fun l mem => ?_
    have other : l ∉ front := fun ahead => List.disjoint_of_nodup_append once ahead mem
    simp [other]

end Sys2Proof.Machine.State

open Sys2Proof Sys2Proof.Machine

/-- Settles O46: the walk is the placements that it makes, one after another, each of a line of its own. -/
theorem queueWalkStopsAtTheFirstThatDoesNotFit : Obligations.QueueWalkStopsAtTheFirstThatDoesNotFit := by
  intro s b held next on law
  have stage : s.runStage b = ({ s with boundary := some { b with next := .waitCounting } } : State).walk s.arb.waitQueue := by
    simp [State.runStage, next, State.walkQueue, on]
  generalize given : ({ s with boundary := some { b with next := .waitCounting } } : State) = u at stage
  have rows : ∀ l, u.row l = s.row l := fun l => by rw [← given]; rfl
  have arb : u.arb = s.arb := by rw [← given]
  have apart : ∀ l, Apart l s u := fun l => by
    rw [← given]
    exact ⟨⟨rfl, rfl, rfl⟩, .of_link rfl, rfl, rfl⟩
  have queued : ∀ l ∈ s.arb.waitQueue, s.row l ≠ none := fun l mem =>
    ((State.queued_iff).mp ((law.queueHeld l).mp mem)).1
  obtain ⟨front, rest, ps, split, walked, course⟩ :=
    State.walk_walked queued law.queuedOnce u (fun l _ => rows l) (by rw [arb])
  rw [course] at stage
  have once : (front ++ rest).Nodup := split ▸ law.queuedOnce
  have placedOnce : (ps.map Prod.fst).Nodup := walked.placed ▸ once.of_append_left.filter _
  have placedHere : ∀ p ∈ ps, p.1 ∈ s.arb.waitQueue := fun p mem => by
    have front : p.1 ∈ front.filter fun l => !s.faulty l := walked.placed ▸ List.mem_map_of_mem mem
    rw [split]
    exact List.mem_append_left _ (List.mem_of_mem_filter front)
  obtain ⟨order, queue, supply, boundary⟩ := State.placeAll_lists (fun p mem => queued _ (placedHere p mem)) placedOnce u
    fun p mem => by
      rw [arb, law.placedHeld, ((State.queued_iff).mp ((law.queueHeld _).mp (placedHere p mem))).2]
      decide
  have kept : Kept s (s.placeAll ps u) := Kept.trans (by rw [← given]; exact .boundary _) (State.placeAll_kept ps u)
  dsimp only
  refine ⟨front, rest, ps, split, walked.placed, walked.found, walked.stopped, ?_, stage, ?_, ?_, ?_, ?_, ?_,
    .of_given kept.given, kept.arb, ?_, kept.link⟩
  · rw [State.exec_queueWalk_next held next on, stage]
    rfl
  · exact (queue.trans (by rw [arb, split])).trans (walked.queue once)
  · exact order.trans (by rw [arb])
  · exact boundary.trans (by rw [← given]; rfl)
  · intro l φ e mem row
    obtain ⟨before, later, rfl⟩ := List.append_of_mem mem
    exact State.placeAll_placed row placedOnce (apart l)
  · intro l other
    have away := (apart l).trans (State.placeAll_apart (s := s) other u)
    exact ⟨away.row, away.line⟩
  · exact supply.trans (by rw [arb, on])
end

section
/-! What the suspension of lines in one event leaves (R131, R136, R144, R169): of each line, of its reports, of the two lists
and of the profile. -/

namespace Sys2Proof.Machine

/-! ### Operations of lines, one after another -/

namespace Apart

variable {l : LineNo} {ls : List LineNo} {f : State → LineNo → State}

/-- Operations of other lines. -/
theorem foldl (h : ∀ {m} u, l ≠ m → Apart l u (f u m)) (other : l ∉ ls) (u : State) : Apart l u (ls.foldl f u) := by
  induction ls generalizing u with
  | nil => exact refl l u
  | cons m ls ih =>
    obtain ⟨away, rest⟩ := not_or.mp (List.mem_cons.not.mp other)
    exact (h u away).trans (ih rest _)

/-- The operation of one line among others. -/
theorem foldl_at (h : ∀ {m} u, l ≠ m → Apart l u (f u m)) (once : ls.Nodup) (mem : l ∈ ls) (u : State) :
    ∃ before : List LineNo, Apart l u (before.foldl f u) ∧ Apart l (f (before.foldl f u) l) (ls.foldl f u) := by
  obtain ⟨before, after, rfl⟩ := List.append_of_mem mem
  have ahead : l ∉ before := fun here => List.disjoint_of_nodup_append once here List.mem_cons_self
  have behind : l ∉ after := (List.nodup_cons.mp once.of_append_right).1
  refine ⟨before, foldl h ahead u, ?_⟩
  rw [List.foldl_append, List.foldl_cons]
  exact foldl h behind _

variable {s : State} {m : LineNo}

theorem markSuspended (c : SuspendCause) (s : State) (h : l ≠ m) : Apart l s (s.markSuspended c m) := by
  unfold State.markSuspended
  split
  · exact refl l s
  · exact of_local (.markRing ..) (.markRing ..) (.markLine _ _ h) h

theorem failToIdle (c : CalCause) (s : State) (h : l ≠ m) : Apart l s (s.failToIdle m c) := by
  refine of_local (.failToIdle ..) (.failToIdle ..) ?_ h
  unfold State.failToIdle
  split
  · exact .refl l s
  · exact (Unmarked.failRun c h).trans (.enter .idle h)

theorem suspensionNotice (s : State) (h : l ≠ m) : Apart l s (s.suspensionNotice m) := by
  unfold State.suspensionNotice
  split
  · exact refl l s
  · split
    · exact failToIdle .supply s h
    · exact refl l s

end Apart

/-- The channel in the report of a suspension (R144). -/
def SuspendCause.channelByte : SuspendCause → Byte
  | .fault c => toByte c.val
  | .capacity => 0xFF

namespace State

variable {s t : State} {l : LineNo} {e : Entry} {r : Run} {ls P Q : List LineNo}

/-! ### The lists, by what the lines hold -/

/-- The two lists hold, in the order of given ones, the lines of the PLACED and of the other entries. -/
structure Listed (P Q : List LineNo) (s : State) : Prop where
  placed : s.arb.placedOrder = P.filter s.placed
  queued : s.arb.waitQueue = Q.filter s.queued

/-- A line's entry is removed from the table and from both lists. -/
theorem Listed.removed (h : s.Listed P Q) (row : t.row l = none) (rows : ∀ m, m ≠ l → t.row m = s.row m)
    (order : t.arb.placedOrder = s.arb.placedOrder.filter (· != l))
    (queue : t.arb.waitQueue = s.arb.waitQueue.filter (· != l)) : t.Listed P Q := by
  refine ⟨?_, ?_⟩
  · rw [order, h.placed, List.filter_filter]
    refine List.filter_congr fun m _ => ?_
    by_cases same : m = l
    · simp [same, placed_of_none row]
    · simp [same, placed_of_row (rows m same)]
  · rw [queue, h.queued, List.filter_filter]
    refine List.filter_congr fun m _ => ?_
    by_cases same : m = l
    · simp [same, queued_of_none row]
    · simp [same, queued_of_row (rows m same)]

/-! ### A suspension notice -/

theorem failToIdle_arb (run : (s.line l).run = some r) (c : CalCause) : (s.failToIdle l c).arb = (s.removeEntry l).arb := by
  rw [failToIdle_of_run c run, enter_arb]
  simp only [failRun, run]
  exact mark_arb _ _ _ _

/-- The notice of a TEST entry's line fails its run (R136, R169). -/
theorem suspensionNotice_of_run (row : s.row l = some e) (test : e.reqType = .test) :
    s.suspensionNotice l = s.failToIdle l .supply := by simp [suspensionNotice, row, test]

/-- Otherwise a notice does nothing (R136). -/
theorem suspensionNotice_of_no_run (h : ∀ e, s.row l = some e → e.reqType = .test → (s.line l).run = none) :
    s.suspensionNotice l = s := by
  unfold suspensionNotice
  split
  · rfl
  · next e row =>
    split
    · next test => simp [failToIdle, h e row test]
    · rfl

theorem suspensionNotice_cases (l : LineNo) (s : State) : s.suspensionNotice l = s
    ∨ ∃ e r, s.row l = some e ∧ (s.line l).run = some r ∧ s.suspensionNotice l = s.failToIdle l .supply := by
  by_cases h : ∀ e, s.row l = some e → e.reqType = .test → (s.line l).run = none
  · exact .inl (suspensionNotice_of_no_run h)
  · push Not at h
    obtain ⟨e, row, test, run⟩ := h
    obtain ⟨r, run⟩ := Option.ne_none_iff_exists'.mp run
    exact .inr ⟨e, r, row, run, suspensionNotice_of_run row test⟩

@[simp] theorem suspensionNotice_supply (l : LineNo) (s : State) : (s.suspensionNotice l).arb.supply = s.arb.supply := by
  rcases suspensionNotice_cases l s with same | ⟨e, r, row, run, failed⟩
  · rw [same]
  · rw [failed, failToIdle_arb run, removeEntry_arb row]

theorem Listed.suspensionNotice (h : s.Listed P Q) (l : LineNo) : (s.suspensionNotice l).Listed P Q := by
  rcases suspensionNotice_cases l s with same | ⟨e, r, row, run, failed⟩
  · rwa [same]
  · rw [failed]
    exact h.removed (row_failToIdle _ run) (Local.failToIdle l _).row
      (by rw [failToIdle_arb run, removeEntry_arb row]) (by rw [failToIdle_arb run, removeEntry_arb row])

theorem profileLaw.suspensionNotice (h : s.profileLaw) (l : LineNo) : (s.suspensionNotice l).profileLaw := by
  rcases suspensionNotice_cases l s with same | ⟨e, r, row, run, failed⟩
  · rwa [same]
  · have arb := failToIdle_arb run .supply
    have rows : ∀ m, (s.failToIdle l .supply).row m = (s.removeEntry l).row m := fun m => by
      rw [State.row, State.row, arb]
    have cadence : (s.failToIdle l .supply).cadence = (s.removeEntry l).cadence := by
      rw [removeEntry_cadence]
      exact congrArg (·.2.1) (Kept.failToIdle l _).given
    rw [failed]
    exact (h.removeEntry l).of_loads (by rw [arb]) fun c cs m => loadOf_of_row (rows m) cadence c cs

/-- A notice leaves its line's RING report (R144). -/
theorem suspensionNotice_ring (l : LineNo) (s : State) : SameReport .ring l s (s.suspensionNotice l) := by
  rcases suspensionNotice_cases l s with same | ⟨e, r, row, run, failed⟩
  · rw [same]
    exact .refl _ _ _
  · have ended : SameReport .ring l s (s.failRun l .supply) := by
      simp only [failRun, run]
      exact SameReport.trans (t := (s.removeEntry l).updLine l _) (.of_link (removeEntry_link l s)) (.markLine _ (by decide))
    rw [failed, failToIdle_of_run _ run]
    exact ended.trans (.enter _ (by decide))

/-! ### A report of a suspension -/

@[simp] theorem markSuspended_arb (c : SuspendCause) (l : LineNo) (s : State) : (s.markSuspended c l).arb = s.arb := by
  unfold markSuspended
  split
  · rfl
  · exact markRing_arb ..

@[simp] theorem markSuspended_line (c : SuspendCause) (l m : LineNo) (s : State) :
    (s.markSuspended c l).line m = s.line m := by
  unfold markSuspended
  split
  · rfl
  · exact line_markRing ..

@[simp] theorem markSuspended_cadence (c : SuspendCause) (l : LineNo) (s : State) :
    (s.markSuspended c l).cadence = s.cadence := congrArg (·.2.1) (Kept.markSuspended c l).given

/-- The RING report of a suspension (R144). -/
theorem markSuspended_marked (c : SuspendCause) (row : s.row l = some e) : (s.markSuspended c l).marked s.link.mask .ring l
    ([lineByte l, 0, ringCauseCode (some c), c.channelByte, e.reqType.code, e.state.code, 0,
      toByte (s.arb.queuePosition l)] ++ stampBytes s.stamp) := by
  simp only [markSuspended, row]
  cases c <;> exact markLine_marked _ _ _ _

/-- The lines of one event reported, each at its place in the queue (R144; log 11). -/
def reportAll (c : SuspendCause) (ls : List LineNo) (s : State) : State := ls.foldl (fun t l => t.markSuspended c l) s

theorem reportAll_cons (c : SuspendCause) (ls : List LineNo) (s : State) :
    s.reportAll c (l :: ls) = (s.markSuspended c l).reportAll c ls := rfl

@[simp] theorem reportAll_arb (c : SuspendCause) (ls : List LineNo) (s : State) : (s.reportAll c ls).arb = s.arb := by
  induction ls generalizing s with
  | nil => rfl
  | cons l ls ih => rw [reportAll_cons, ih, markSuspended_arb]

@[simp] theorem reportAll_line (c : SuspendCause) (ls : List LineNo) (m : LineNo) (s : State) :
    (s.reportAll c ls).line m = s.line m := by
  induction ls generalizing s with
  | nil => rfl
  | cons l ls ih => rw [reportAll_cons, ih, markSuspended_line]

@[simp] theorem reportAll_cadence (c : SuspendCause) (ls : List LineNo) (s : State) :
    (s.reportAll c ls).cadence = s.cadence := by
  induction ls generalizing s with
  | nil => rfl
  | cons l ls ih => rw [reportAll_cons, ih, markSuspended_cadence]

@[simp] theorem row_reportAll (c : SuspendCause) (ls : List LineNo) (m : LineNo) (s : State) :
    (s.reportAll c ls).row m = s.row m := by rw [State.row, reportAll_arb]; rfl

/-! ### The suspension of lines in one event -/

/-- The notices of the lines of one event (R136). -/
def noticeAll (ls : List LineNo) (s : State) : State := ls.foldl (fun t l => t.suspensionNotice l) s

theorem noticeAll_cons (l : LineNo) (ls : List LineNo) (s : State) :
    s.noticeAll (l :: ls) = (s.suspensionNotice l).noticeAll ls := rfl

theorem noticeAll_supply (ls : List LineNo) (s : State) : (s.noticeAll ls).arb.supply = s.arb.supply := by
  induction ls generalizing s with
  | nil => rfl
  | cons l ls ih => rw [noticeAll_cons, ih, suspensionNotice_supply]

theorem Listed.noticeAll (h : s.Listed P Q) (ls : List LineNo) : (s.noticeAll ls).Listed P Q := by
  induction ls generalizing s with
  | nil => exact h
  | cons l ls ih => exact ih (h.suspensionNotice l)

theorem profileLaw.noticeAll (h : s.profileLaw) (ls : List LineNo) : (s.noticeAll ls).profileLaw := by
  induction ls generalizing s with
  | nil => exact h
  | cons l ls ih => exact ih (h.suspensionNotice l)

/-- A suspension is a withdrawal to the queue, with the reports and then the notices (R131, R136). -/
theorem suspendMany_eq (ls : List LineNo) (c : SuspendCause) (s : State) :
    s.suspendMany ls c = ((s.suspended ls).reportAll c ls).noticeAll ls := rfl

theorem suspended_kept (ls : List LineNo) (s : State) : Kept s (s.suspended ls) :=
  (withdrawAll_kept ls s).trans (.joinSuspended ls)

theorem profileLaw.suspendMany (h : s.profileLaw) (ls : List LineNo) (c : SuspendCause) : (s.suspendMany ls c).profileLaw := by
  have reported : ((s.suspended ls).reportAll c ls).profileLaw :=
    (h.suspended ls).of_loads (by rw [reportAll_arb]) fun _ _ m =>
      loadOf_of_row (row_reportAll c ls m _) (reportAll_cadence c ls _) _ _
  exact reported.noticeAll ls

/-- A line outside the event, and its reports. -/
theorem suspendMany_apart (held : ∀ m ∈ ls, s.row m ≠ none) (other : l ∉ ls) (c : SuspendCause) :
    Apart l s (s.suspendMany ls c) := by
  obtain ⟨-, -, -, link⟩ := suspended_lists ls s held
  have withdrawn : Apart l s (s.suspended ls) := by
    refine ⟨.of_kept (suspended_kept ls s), .of_link link, ?_, ?_⟩
    · rw [line_suspended, if_neg fun h => other h.1]
    · rw [row_suspended, if_neg other]
  exact withdrawn.trans ((Apart.foldl (Apart.markSuspended c) other _).trans (Apart.foldl Apart.suspensionNotice other _))

section
variable (once : ls.Nodup) (placed : ∀ m ∈ ls, s.placed m = true) (c : SuspendCause)
include once placed

/-- The lists after the event (R131): those of the event, but for the failed runs, have joined the queue. -/
theorem suspendMany_listed (law : s.arbiterLaw) : (s.suspendMany ls c).Listed s.arb.placedOrder (s.queueWith ls) := by
  have held := fun m mem => row_of_placed (placed m mem)
  have after := law.suspended once placed
  obtain ⟨order, queue, -, -⟩ := suspended_lists ls s held
  have listed : (s.suspended ls).Listed s.arb.placedOrder (s.queueWith ls) := by
    refine ⟨?_, ?_⟩
    · rw [order]
      refine List.filter_congr fun m mem => ?_
      have here := (law.placedHeld m).mp mem
      rw [Bool.eq_iff_iff, ← after.placedHeld, order]
      simp [mem]
    · rw [queue, eq_comm, List.filter_eq_self]
      exact fun m mem => (after.queueHeld m).mp (by rwa [queue])
  have reported : ((s.suspended ls).reportAll c ls).Listed s.arb.placedOrder (s.queueWith ls) := by
    have placed : ((s.suspended ls).reportAll c ls).placed = (s.suspended ls).placed :=
      funext fun m => placed_of_row (row_reportAll c ls m _)
    have queued : ((s.suspended ls).reportAll c ls).queued = (s.suspended ls).queued :=
      funext fun m => queued_of_row (row_reportAll c ls m _)
    exact ⟨by rw [reportAll_arb, placed, listed.placed], by rw [reportAll_arb, queued, listed.queued]⟩
  exact reported.noticeAll ls

/-- A line of the event, between its withdrawal and its notice. -/
theorem suspendMany_at (mem : l ∈ ls) (row : s.row l = some e) : ∃ v : State,
    v.row l = some e.suspendedEntry ∧ v.line l = { s.line l with play := none }
      ∧ Apart l (v.suspensionNotice l) (s.suspendMany ls c)
      ∧ v.marked s.link.mask .ring l ([lineByte l, 0, ringCauseCode (some c), c.channelByte, e.reqType.code, 2, 0,
        toByte ((s.queueWith ls).idxOf l + 1)] ++ stampBytes s.stamp) := by
  obtain ⟨-, queue, -, -⟩ := suspended_lists ls s fun m mem => row_of_placed (placed m mem)
  obtain ⟨earlier, between, noticed⟩ :=
    Apart.foldl_at Apart.suspensionNotice once mem ((s.suspended ls).reportAll c ls)
  obtain ⟨before, ahead, behind⟩ := Apart.foldl_at (Apart.markSuspended c) once mem (s.suspended ls)
  have rowBefore : ((s.suspended ls).reportAll c before).row l = some e.suspendedEntry := by
    rw [row_reportAll, row_suspended, if_pos mem, row]
    rfl
  refine ⟨_, ?_, ?_, noticed, ?_⟩
  · rw [between.row, row_reportAll, row_suspended, if_pos mem, row]
    rfl
  · rw [between.line, reportAll_line, line_suspended, if_pos ⟨mem, by simp [row]⟩]
  · have reported := markSuspended_marked c rowBefore
    have aside : Aside s ((s.suspended ls).reportAll c before) := (Aside.of_kept (suspended_kept ls s)).trans ahead.aside
    have position : (s.queueWith ls).contains l = true := by simp [mem_queueWith, mem]
    rw [aside.mask, aside.stamp, reportAll_arb, Arbiter.queuePosition, queue, if_pos position] at reported
    exact between.unmarked.marked (behind.unmarked.marked reported)

/-- The report of a line of the event (R144): its place is that after all of the event have joined the queue (log 11). -/
theorem suspendMany_marked (mem : l ∈ ls) (row : s.row l = some e) : (s.suspendMany ls c).marked s.link.mask .ring l
    ([lineByte l, 0, ringCauseCode (some c), c.channelByte, e.reqType.code, 2, 0,
      toByte ((s.queueWith ls).idxOf l + 1)] ++ stampBytes s.stamp) := by
  obtain ⟨v, -, -, noticed, marked⟩ := suspendMany_at once placed c mem row
  exact noticed.unmarked.marked ((suspensionNotice_ring l v).marked marked)

/-- A line of the event whose entry stands in the queue (R131, R136). -/
theorem suspendMany_stands (mem : l ∈ ls) (row : s.row l = some e)
    (no_run : e.reqType = .test → (s.line l).run = none) :
    (s.suspendMany ls c).row l = some e.suspendedEntry ∧ (s.suspendMany ls c).line l = { s.line l with play := none } := by
  obtain ⟨v, held, line, noticed, -⟩ := suspendMany_at once placed c mem row
  rw [suspensionNotice_of_no_run fun d here test => ?_] at noticed
  · exact ⟨noticed.row.trans held, noticed.line.trans line⟩
  · rw [line]
    cases held.symm.trans here
    exact no_run test

/-- A line of the event whose calibration run fails (R136, R169). -/
theorem suspendMany_fails (mem : l ∈ ls) (row : s.row l = some e) (test : e.reqType = .test)
    (run : (s.line l).run = some r) : let t := s.suspendMany ls c
    t.row l = none ∧ (t.line l).run = none ∧ (t.line l).calStatus = .failed ∧ (t.line l).calCause = some .supply
      ∧ (t.line l).call = .idle := by
  obtain ⟨v, held, line, noticed, -⟩ := suspendMany_at once placed c mem row
  have running : (v.line l).run = some r := by rw [line, ← run]
  rw [suspensionNotice_of_run held test] at noticed
  dsimp only
  rw [noticed.row, noticed.line, row_failToIdle .supply running, line_failToIdle .supply running]
  exact ⟨rfl, rfl, rfl, rfl, rfl⟩

/-- No entry of the event is PLACED any more. -/
theorem suspendMany_placed (l : LineNo) : (s.suspendMany ls c).placed l = (s.placed l && !ls.contains l) := by
  by_cases mem : l ∈ ls
  · obtain ⟨e, φ, row, -⟩ := placed_iff.mp (placed l mem)
    have out : (s.suspendMany ls c).placed l = false := by
      by_cases failing : e.reqType = .test ∧ (s.line l).run ≠ none
      · obtain ⟨r, run⟩ := Option.ne_none_iff_exists'.mp failing.2
        exact placed_of_none (suspendMany_fails once placed c mem row failing.1 run).1
      · exact placed_of_unplaced (suspendMany_stands once placed c mem row fun test => by simpa [test] using failing).1
          suspended_unplaced
    simp [out, mem]
  · have apart := suspendMany_apart (fun m here => row_of_placed (placed m here)) mem c
    simp [placed_of_row apart.row, mem]

end

/-- A suspension leaves the supply as it is (R136). -/
theorem suspendMany_supply (held : ∀ m ∈ ls, s.row m ≠ none) (c : SuspendCause) :
    (s.suspendMany ls c).arb.supply = s.arb.supply := by
  obtain ⟨-, -, supply, -⟩ := suspended_lists ls s held
  rw [suspendMany_eq, noticeAll_supply, reportAll_arb, supply]

/-- The queue after the suspension of lines of the placed order list (R131), by those of the list that now wait. -/
theorem suspendMany_waitQueue (law : s.arbiterLaw) (p : LineNo → Bool) (c : SuspendCause) :
    let t := s.suspendMany (s.arb.placedOrder.filter p) c
    t.arb.waitQueue = s.queueWith (s.arb.placedOrder.filter t.queued) := by
  intro t
  have once : (s.arb.placedOrder.filter p).Nodup := law.placedOnce.filter _
  have placed : ∀ m ∈ s.arb.placedOrder.filter p, s.placed m = true := fun m mem =>
    (law.placedHeld m).mp (List.mem_of_mem_filter mem)
  have stands : ∀ m, m ∉ s.arb.placedOrder.filter p → t.queued m = s.queued m := fun m other =>
    queued_of_row (suspendMany_apart (fun m here => row_of_placed (placed m here)) other c).row
  have waiting : s.arb.waitQueue.filter t.queued = s.arb.waitQueue := by
    refine List.filter_eq_self.mpr fun m mem => ?_
    have waits := (law.queueHeld m).mp mem
    rw [stands m fun here => by simp [queued_iff, placed m here] at waits, waits]
  have left : (s.arb.placedOrder.filter p).filter t.queued = s.arb.placedOrder.filter t.queued := by
    rw [List.filter_filter]
    refine List.filter_congr fun m mem => ?_
    by_cases out : p m = true
    · simp [out]
    · have other : m ∉ s.arb.placedOrder.filter p := fun here => out (List.of_mem_filter here)
      have still : t.queued m = false := by
        rw [stands m other, Bool.eq_false_iff, Ne, queued_iff, (law.placedHeld m).mp mem]
        simp
      simp [still]
  have both : (s.arb.placedOrder.filter p ++ s.arb.waitQueue).filter t.queued
      = s.arb.placedOrder.filter t.queued ++ s.arb.waitQueue := by rw [List.filter_append, waiting, left]
  rw [(suspendMany_listed once placed c law).queued, queueWith_eq, queueWith_eq, ← both, List.filter_append]
  simp only [List.filter_filter, Bool.and_comm, t]

end State
end Sys2Proof.Machine
end

section
/-! The supply fault inputs (R122, R135, R143, R146): what their events leave. -/

namespace Sys2Proof.Machine

theorem channelBit_getLsbD (c d : Channel) : (channelBit c).getLsbD d.val = (d == c) := by
  revert c d
  decide

namespace State

variable {s : State} {c : Channel}

/-- The SUPPLY report of a supply event stands marked (R143). -/
theorem markSupply_marked (ev : SupplyEvent) (c : Option Channel) (s : State) :
    (s.markSupply ev c).markedDevice s.link.mask .supply
      ([ev.code, (match c with | none => 0xFF | some x => toByte x.val), s.arb.supply.code, toByte s.arb.faults.toNat]
        ++ stampBytes s.stamp) := fun on => ⟨mark_slot_self _ _ _ _ on, mark_pending_self _ _ _ _ on⟩

/-- A supply event's report leaves the lines alone. -/
theorem markSupply_apart (l : LineNo) (ev : SupplyEvent) (c : Option Channel) (s : State) : Apart l s (s.markSupply ev c) :=
  ⟨.of_kept (.markSupply ev c), .markDevice .., line_markDevice .., row_markDevice ..⟩

/-! ### The first sample and a release -/

theorem exec_firstFaultSample (fresh : s.arb.faultSampled = false) (v : BitVec 4) : exec (.firstFaultSample v) s =
    .next ({ s with arb := { s.arb with faults := v, faultSampled := true } }.settleLink) := by
  change occurring (!s.arb.faultSampled) (State.updArb fun a => { a with faults := v, faultSampled := true }) s = _
  simp only [occurring, fresh, Bool.not_false, if_true]
  rfl

theorem exec_faultRelease (sampled : s.arb.faultSampled = true) (set : s.arb.faults.getLsbD c.val = true) :
    exec (.faultRelease c) s = .next (s.releaseFault c).settleLink := by
  change occurring (s.arb.faultSampled && s.arb.faulted c) (State.releaseFault c) s = _
  simp only [occurring, sampled, Arbiter.faulted, set, finish, Bool.and_self, if_true]

/-- The state with a channel's input clear (R122). -/
theorem releaseFault_eq (c : Channel) (s : State) : s.releaseFault c =
    { s with arb := { s.arb with faults := (s.releaseFault c).arb.faults }, link := (s.releaseFault c).link } := by
  simp only [releaseFault, markSupply, markDevice]
  rw [mark_eq]
  rfl

theorem releaseFault_arb (c : Channel) (s : State) :
    (s.releaseFault c).arb = { s.arb with faults := s.arb.faults &&& ~~~(channelBit c) } := mark_arb ..

/-- A release is reported with the inputs that it leaves (R143). -/
theorem releaseFault_marked (c : Channel) (s : State) : (s.releaseFault c).markedDevice s.link.mask .supply
    ([4, toByte c.val, s.arb.supply.code, toByte (s.releaseFault c).arb.faults.toNat] ++ stampBytes s.stamp) := by
  rw [releaseFault_arb]
  exact markSupply_marked .faultCleared (some c) (s.updArb fun a => { a with faults := a.faults &&& ~~~(channelBit c) })

theorem releaseFault_core (c : Channel) (s : State) : (s.releaseFault c).link.core = s.link.core :=
  (Kept.markSupply .faultCleared (some c)).link

theorem releaseFault_faults (c d : Channel) (s : State) :
    (s.releaseFault c).arb.faults.getLsbD d.val = (s.arb.faults.getLsbD d.val && d != c) := by
  rw [releaseFault_arb, BitVec.getLsbD_and, BitVec.getLsbD_not, channelBit_getLsbD]
  simp [bne]

/-! ### An assertion -/

/-- The state with a channel's input asserted (R122). -/
def faultSet (c : Channel) (s : State) : State := s.updArb fun a => { a with faults := a.faults ||| channelBit c }

theorem sameTable_faultSet (c : Channel) (s : State) : SameTable s (s.faultSet c) := ⟨rfl, rfl, rfl, rfl, id, rfl⟩

theorem assertFault_eq (c : Channel) (s : State) : s.assertFault c =
    ((s.faultSet c).suspendMany (s.placedOn c) (.fault c)).markSupply .faultSet (some c) := rfl

theorem exec_faultAssertion (sampled : s.arb.faultSampled = true) (clear : s.arb.faults.getLsbD c.val = false) :
    exec (.faultAssertion c) s = .next (s.assertFault c).settleLink := by
  change occurring (s.arb.faultSampled && !s.arb.faulted c) (State.assertFault c) s = _
  simp only [occurring, sampled, Arbiter.faulted, clear, finish, Bool.not_false, Bool.and_self, if_true]

theorem mem_placedOn {l : LineNo} (law : s.arbiterLaw) :
    l ∈ s.placedOn c ↔ ∃ e φ, s.row l = some e ∧ e.state = .placed φ ∧ e.uses c = true := by
  rw [placedOn, List.mem_filter, law.placedHeld, placed_iff]
  refine ⟨fun ⟨⟨e, φ, row, state⟩, uses⟩ => ⟨e, φ, row, state, by simpa [row] using uses⟩,
    fun ⟨e, φ, row, state, uses⟩ => ⟨⟨e, φ, row, state⟩, by simpa [row] using uses⟩⟩

/-- What an assertion leaves of its channel's lines before its own report: the suspension of them. -/
def faultSuspended (c : Channel) (s : State) : State := (s.faultSet c).suspendMany (s.placedOn c) (.fault c)

theorem assertFault_arb (c : Channel) (s : State) : (s.assertFault c).arb = (s.faultSuspended c).arb := mark_arb ..

theorem assertFault_apart (l : LineNo) (c : Channel) (s : State) : Apart l (s.faultSuspended c) (s.assertFault c) :=
  markSupply_apart l .faultSet (some c) _

theorem assertFault_queued (c : Channel) (s : State) : (s.assertFault c).queued = (s.faultSuspended c).queued :=
  funext fun l => queued_of_row (assertFault_apart l c s).row

theorem faultSuspended_aside (c : Channel) (s : State) : Aside (s.faultSet c) (s.faultSuspended c) :=
  .of_kept (.suspendMany ..)

theorem assertFault_kept (c : Channel) (s : State) :
    (s.assertFault c).given = s.given ∧ (s.assertFault c).link.core = s.link.core := by
  have aside := (faultSuspended_aside c s).trans (assertFault_apart 0 c s).aside
  exact ⟨aside.given, aside.core⟩

theorem assertFault_faults (c d : Channel) (s : State) :
    (s.assertFault c).arb.faults.getLsbD d.val = (s.arb.faults.getLsbD d.val || d == c) := by
  have faults : (s.assertFault c).arb.faults = s.arb.faults ||| channelBit c := by
    rw [assertFault_arb]
    exact congrArg (·.2.1) (faultSuspended_aside c s).arb
  rw [faults, BitVec.getLsbD_or, channelBit_getLsbD]

section
variable (law : s.arbiterLaw)
include law

theorem faultSet_law (c : Channel) : (s.faultSet c).arbiterLaw := law.of_same (sameTable_faultSet c s)

theorem placedOn_nodup (c : Channel) : (s.placedOn c).Nodup := law.placedOnce.filter _

theorem placedOn_placed : ∀ m ∈ s.placedOn c, (s.faultSet c).placed m = true := fun m mem =>
  (law.placedHeld m).mp (List.mem_of_mem_filter mem)

theorem placedOn_held : ∀ m ∈ s.placedOn c, (s.faultSet c).row m ≠ none := fun m mem =>
  row_of_placed (placedOn_placed law m mem)

theorem assertFault_placedOrder :
    (s.assertFault c).arb.placedOrder = s.arb.placedOrder.filter fun l => !(s.placedOn c).contains l := by
  have listed := suspendMany_listed (placedOn_nodup law c) (placedOn_placed law) (.fault c) (faultSet_law law c)
  rw [assertFault_arb]
  refine listed.placed.trans (List.filter_congr fun m mem => ?_)
  rw [suspendMany_placed (placedOn_nodup law c) (placedOn_placed law), (faultSet_law law c |>.placedHeld m).mp mem,
    Bool.true_and]

theorem assertFault_waitQueue :
    (s.assertFault c).arb.waitQueue = s.queueWith (s.arb.placedOrder.filter (s.assertFault c).queued) := by
  rw [assertFault_arb, assertFault_queued]
  exact suspendMany_waitQueue (faultSet_law law c) _ (.fault c)

variable {l : LineNo} {e : Entry} {φ : Nat}

theorem assertFault_marked (mem : l ∈ s.placedOn c) (row : s.row l = some e) :
    (s.assertFault c).marked s.link.mask .ring l
      ([lineByte l, 0, 2, toByte c.val, e.reqType.code, 2, 0, toByte ((s.queueWith (s.placedOn c)).idxOf l + 1)]
        ++ stampBytes s.stamp) :=
  (assertFault_apart l c s).unmarked.marked
    (suspendMany_marked (placedOn_nodup law c) (placedOn_placed law) (.fault c) mem row)

theorem assertFault_other (other : ∀ e φ, s.row l = some e → e.state = .placed φ → e.uses c = false) :
    (s.assertFault c).row l = s.row l ∧ (s.assertFault c).line l = s.line l := by
  have outside : l ∉ s.placedOn c := fun mem => by
    obtain ⟨e, φ, row, state, uses⟩ := (mem_placedOn law).mp mem
    simp [other e φ row state] at uses
  have apart := (suspendMany_apart (placedOn_held law) outside (.fault c)).trans (assertFault_apart l c s)
  exact ⟨apart.row, apart.line⟩

theorem assertFault_stands (row : s.row l = some e) (state : e.state = .placed φ) (uses : e.uses c = true)
    (call : e.reqType ≠ .test) :
    (s.assertFault c).row l = some { e with state := .suspended, waited := 0, delayed := false }
      ∧ (s.assertFault c).line l = { s.line l with play := none } ∧ l ∈ (s.assertFault c).arb.waitQueue := by
  have mem := (mem_placedOn law).mpr ⟨e, φ, row, state, uses⟩
  obtain ⟨held, line⟩ := suspendMany_stands (placedOn_nodup law c) (placedOn_placed law) (.fault c) mem row
    fun test => absurd test call
  have apart := assertFault_apart l c s
  refine ⟨apart.row.trans held, apart.line.trans line, ?_⟩
  rw [assertFault_waitQueue law, mem_queueWith, assertFault_queued]
  exact .inl (List.mem_filter.mpr ⟨List.mem_of_mem_filter mem, queued_of_unplaced held suspended_unplaced⟩)

theorem assertFault_fails (row : s.row l = some e) (state : e.state = .placed φ) (uses : e.uses c = true)
    (test : e.reqType = .test) (running : (s.line l).run ≠ none) :
    (s.assertFault c).row l = none ∧ ((s.assertFault c).line l).run = none
      ∧ ((s.assertFault c).line l).calStatus = .failed ∧ ((s.assertFault c).line l).calCause = some .supply := by
  obtain ⟨r, run⟩ := Option.ne_none_iff_exists'.mp running
  have mem := (mem_placedOn law).mpr ⟨e, φ, row, state, uses⟩
  obtain ⟨gone, ended, status, cause, -⟩ :=
    suspendMany_fails (placedOn_nodup law c) (placedOn_placed law) (.fault c) mem row test run
  have apart := assertFault_apart l c s
  rw [apart.row, apart.line]
  exact ⟨gone, ended, status, cause⟩

/-- An assertion is reported with the inputs that it leaves (R143). -/
theorem assertFault_reported (c : Channel) : (s.assertFault c).markedDevice s.link.mask .supply
    ([3, toByte c.val, s.arb.supply.code, toByte (s.assertFault c).arb.faults.toNat] ++ stampBytes s.stamp) := by
  have marked := markSupply_marked .faultSet (some c) (s.faultSuspended c)
  have aside := faultSuspended_aside c s
  have supply : (s.faultSuspended c).arb.supply = s.arb.supply := suspendMany_supply (placedOn_held law) (.fault c)
  rw [aside.mask, aside.stamp, supply] at marked
  rwa [assertFault_arb]

end

end State
end Sys2Proof.Machine

open Sys2Proof Sys2Proof.Machine

/-- Settles O48: an assertion is the suspension, in one event, of the lines with a voice on the channel. -/
theorem faultInputsSuspendTheirChannel : Obligations.FaultInputsSuspendTheirChannel := by
  intro c s
  refine ⟨fun v fresh => State.exec_firstFaultSample fresh v, fun sampled set => ?_, fun sampled clear law => ?_⟩
  · exact ⟨_, State.exec_faultRelease sampled set, State.releaseFault_eq c s, fun d => State.releaseFault_faults c d s,
      State.releaseFault_core c s, State.releaseFault_marked c s⟩
  · exact ⟨_, State.exec_faultAssertion sampled clear, State.assertFault_placedOrder law, State.assertFault_waitQueue law,
      fun l e mem row => State.assertFault_marked law mem row, fun d => State.assertFault_faults c d s,
      fun l other => State.assertFault_other law other,
      fun l e φ row state uses => ⟨State.assertFault_stands law row state uses, State.assertFault_fails law row state uses⟩,
      .of_given (State.assertFault_kept c s).1, (State.assertFault_kept c s).2, State.assertFault_reported law c⟩
end

section
/-! Eviction (R132): which entries its walks reach and suspend, and why no point is overloaded afterwards. -/

namespace Sys2Proof.Machine.State

variable {s : State} {l : LineNo} {e : Entry} {φ : Nat} {p : Tab 4 (Tab 120 Nat)} {gone ls : List LineNo}

/-! ### The loads that are left -/

/-- The loads on a channel at a cycle step of the lines that have not gone (R126, R132). -/
def loadLeft (s : State) (gone : List LineNo) (c : Channel) (cs : Nat) : Nat :=
  (lineNos.map fun m => if m ∈ gone then 0 else s.loadOf c cs m).sum

/-- With more lines gone, no more load is left. -/
theorem loadLeft_anti {more : List LineNo} (h : gone ⊆ more) (c : Channel) (cs : Nat) :
    s.loadLeft more c cs ≤ s.loadLeft gone c cs := by
  unfold loadLeft
  rw [sum_lines, sum_lines]
  refine Finset.sum_le_sum fun m _ => ?_
  by_cases out : m ∈ gone
  · rw [if_pos (h out)]
    exact Nat.zero_le _
  · rw [if_neg out]
    split
    · exact Nat.zero_le _
    · exact Nat.le_refl _

/-- With one more line gone, its load is no longer there. -/
theorem loadLeft_append (fresh : l ∉ gone) (c : Channel) (cs : Nat) :
    s.loadLeft (gone ++ [l]) c cs = s.loadLeft gone c cs - s.loadOf c cs l := by
  have change := sum_lines_change (l := l) (f := fun m => if m ∈ gone then 0 else s.loadOf c cs m)
    (g := fun m => if m ∈ gone ++ [l] then 0 else s.loadOf c cs m) fun m other => by simp [other]
  simp only [fresh, if_false, List.mem_append, List.mem_singleton, or_true, if_true, Nat.add_zero] at change
  simp only [loadLeft, List.mem_append, List.mem_singleton]
  omega

/-- A profile is the loads of the lines that have not gone. -/
def Leaves (s : State) (gone : List LineNo) (p : Tab 4 (Tab 120 Nat)) : Prop :=
  ∀ (c : Channel) (cs : Fin 120), (p.get c).get cs = s.loadLeft gone c cs.val

theorem leaves_nil (law : s.profileLaw) : s.Leaves [] s.arb.profile := fun c cs => by
  rw [law c cs]
  simp [loadLeft]

theorem Leaves.without (h : s.Leaves gone p) (fresh : l ∉ gone) (row : s.row l = some e) (state : e.state = .placed φ) :
    s.Leaves (gone ++ [l]) (s.profileWithout p e φ) := fun c cs => by
  rw [loadLeft_append fresh, ← h c cs, loadOf_of_placed row state]
  simp [profileWithout]

/-! ### Which entry goes -/

/-- A voice of the line's entry is ON at a point that the lines that have not gone overload (R132). -/
def Overloads (s : State) (gone : List LineNo) (e : Entry) (φ : Nat) : Prop :=
  ∃ (cs : Fin 120) (v : Voice), s.voiceOn e φ cs.val = some v ∧ s.capacity v.channel cs.val < s.loadLeft gone v.channel cs.val

theorem contributes_iff (h : s.Leaves gone p) : s.contributes p e φ = true ↔ s.Overloads gone e φ := by
  have steps : s.contributes p e φ = true ↔ ∃ cs : Fin 120, ∃ v, s.voiceOn e φ cs.val = some v
      ∧ s.overloaded p v.channel cs.val = true := by
    rw [contributes, List.any_eq_true]
    constructor
    · rintro ⟨cs, lt, on⟩
      refine ⟨⟨cs, List.mem_range.mp lt⟩, ?_⟩
      split at on
      · contradiction
      · next v voice => exact ⟨v, voice, on⟩
    · rintro ⟨cs, v, voice, on⟩
      refine ⟨cs, List.mem_range.mpr cs.isLt, ?_⟩
      rwa [voice]
  simp only [steps, Overloads, overloaded, profileAt, decide_eq_true_eq, ← h _ _, Fin.ofNat_val_eq_self]

/-- The eviction walk at a PLACED entry (R132). -/
theorem evictWalk_cons (row : s.row l = some e) (state : e.state = .placed φ) (p : Tab 4 (Tab 120 Nat))
    (ls : List LineNo) : s.evictWalk p (l :: ls) =
      if s.contributes p e φ then l :: s.evictWalk (s.profileWithout p e φ) ls else s.evictWalk p ls := by
  simp [evictWalk, row, state]

theorem evictWalk_subset (placed : ∀ m ∈ ls, s.placed m = true) (p : Tab 4 (Tab 120 Nat)) : s.evictWalk p ls ⊆ ls := by
  induction ls generalizing p with
  | nil => exact List.Subset.refl _
  | cons l ls ih =>
    have rest := fun m mem => placed m (List.mem_cons_of_mem l mem)
    obtain ⟨e, φ, row, state⟩ := placed_iff.mp (placed l List.mem_cons_self)
    rw [evictWalk_cons row state]
    split
    · exact List.cons_subset_cons l (ih rest _)
    · exact List.subset_cons_of_subset l (ih rest p)

/-- A line goes exactly when its entry is ON at a point that those still there overload (R132). -/
theorem mem_evictWalk (leaves : s.Leaves gone p) (placed : ∀ m ∈ ls, s.placed m = true) (once : ls.Nodup)
    (apart : ∀ m ∈ ls, m ∉ gone) {before after : List LineNo} (split : ls = before ++ l :: after) (row : s.row l = some e)
    (state : e.state = .placed φ) :
    l ∈ s.evictWalk p ls ↔ s.Overloads (gone ++ before.filter fun m => m ∈ s.evictWalk p ls) e φ := by
  induction ls generalizing p gone before with
  | nil => simp at split
  | cons m ls ih =>
    obtain ⟨d, ψ, held, there⟩ := placed_iff.mp (placed m List.mem_cons_self)
    obtain ⟨first, later⟩ := List.nodup_cons.mp once
    have rest := fun n mem => placed n (List.mem_cons_of_mem m mem)
    have fresh := apart m List.mem_cons_self
    have walk := evictWalk_cons held there p ls
    cases before with
    | nil =>
      obtain ⟨rfl, rfl⟩ := List.cons.inj split
      cases held.symm.trans row
      cases there.symm.trans state
      have stays : m ∉ s.evictWalk p ls := fun mem => first (evictWalk_subset rest p mem)
      rw [List.filter_nil, List.append_nil, ← contributes_iff leaves, walk]
      split
      · next goes => simp [goes]
      · next goes => simp [goes, stays]
    | cons b before =>
      obtain ⟨rfl, tails⟩ := List.cons.inj split
      have other : l ≠ m := fun same => first (by rw [tails, same]; simp)
      have ahead : m ∉ before := fun mem => first (by rw [tails]; exact List.mem_append_left _ mem)
      by_cases goes : s.contributes p d ψ = true
      · rw [walk, if_pos goes, List.mem_cons, or_iff_right other]
        have out : (m :: before).filter (fun n => n ∈ m :: s.evictWalk (s.profileWithout p d ψ) ls)
            = m :: before.filter fun n => n ∈ s.evictWalk (s.profileWithout p d ψ) ls := by
          rw [List.filter_cons_of_pos (by simp)]
          refine congrArg _ (List.filter_congr fun n mem => ?_)
          simp [ne_of_mem_of_not_mem mem ahead]
        rw [out, List.append_cons]
        refine ih (leaves.without fresh held there) rest later (fun n mem => ?_) tails
        simp [apart n (List.mem_cons_of_mem m mem), ne_of_mem_of_not_mem mem first]
      · rw [walk, if_neg goes]
        have stays : m ∉ s.evictWalk p ls := fun mem => first (evictWalk_subset rest p mem)
        rw [List.filter_cons_of_neg (by simpa using stays)]
        exact ih leaves rest later (fun n mem => apart n (List.mem_cons_of_mem m mem)) tails

/-- The walk leaves no point overloaded, if it reaches every PLACED entry (R132). -/
theorem evictWalk_fits (leaves : s.Leaves [] p) (placed : ∀ m, m ∈ ls ↔ s.placed m = true) (once : ls.Nodup) (c : Channel)
    (cs : Fin 120) : s.loadLeft (s.evictWalk p ls) c cs.val ≤ s.capacity c cs.val := by
  by_contra exceeds
  obtain ⟨l, stays, load⟩ : ∃ l, l ∉ s.evictWalk p ls ∧ s.loadOf c cs.val l ≠ 0 := by
    by_contra none'
    push Not at none'
    have empty : s.loadLeft (s.evictWalk p ls) c cs.val = 0 := by
      rw [loadLeft, sum_lines]
      exact Finset.sum_eq_zero fun m _ => by
        split
        · rfl
        · next stays => exact none' m stays
    omega
  have here : s.placed l = true := by
    by_contra unplaced
    exact load (loadOf_of_unplaced (Bool.eq_false_iff.mpr unplaced) c cs.val)
  obtain ⟨e, φ, row, state⟩ := placed_iff.mp here
  obtain ⟨before, after, split⟩ := List.append_of_mem ((placed l).mpr here)
  have goes := mem_evictWalk leaves (fun m mem => (placed m).mp mem) once (fun m _ => List.not_mem_nil) split row state
  refine stays (goes.mpr ?_)
  rw [loadOf_of_placed row state, loadAt] at load
  cases voice : s.voiceOn e φ cs.val with
  | none => simp [voice, voiceLoad] at load
  | some v =>
    have channel : v.channel = c := by
      by_contra other
      simp [voice, voiceLoad, other] at load
    refine ⟨cs, v, voice, ?_⟩
    have fewer := loadLeft_anti (s := s) (gone := [] ++ before.filter fun m => m ∈ s.evictWalk p ls)
      (more := s.evictWalk p ls) (fun m mem => by simpa using (List.mem_filter.mp mem).2) c cs.val
    rw [channel]
    omega

/-! ### The lines that eviction suspends -/

theorem evictOrder_perm (s : State) : s.evictOrder.Perm s.arb.placedOrder := by
  have sections := List.filter_append_perm s.alarmEntry s.arb.placedOrder.reverse
  exact List.perm_append_comm.trans (sections.trans (List.reverse_perm _))

section
variable (law : s.arbiterLaw)
include law

theorem mem_evictOrder (m : LineNo) : m ∈ s.evictOrder ↔ s.placed m = true := by
  rw [(evictOrder_perm s).mem_iff, law.placedHeld]

theorem evictOrder_nodup : s.evictOrder.Nodup := (evictOrder_perm s).nodup_iff.mpr law.placedOnce

theorem mem_evicted : l ∈ s.evicted ↔ l ∈ s.evictWalk s.arb.profile s.evictOrder := by
  have reached := evictWalk_subset (fun m => (mem_evictOrder law m).mp) s.arb.profile
  simp only [evicted, List.mem_filter, List.contains_iff_mem, ← (evictOrder_perm s).mem_iff]
  exact and_iff_right_of_imp fun mem => reached mem

theorem evicted_nodup : s.evicted.Nodup := law.placedOnce.filter _

theorem evicted_placed : ∀ m ∈ s.evicted, s.placed m = true := fun m mem =>
  (law.placedHeld m).mp (List.mem_of_mem_filter mem)

theorem evicted_held : ∀ m ∈ s.evicted, s.row m ≠ none := fun m mem => row_of_placed (evicted_placed law m mem)

/-- Which entries go (R132): each by the load of those that the walks before it left. -/
theorem mem_evicted_iff (loads : s.profileLaw) {before after : List LineNo} (split : s.evictOrder = before ++ l :: after)
    (row : s.row l = some e) (state : e.state = .placed φ) :
    l ∈ s.evicted ↔ s.Overloads (before.filter fun m => m ∈ s.evicted) e φ := by
  simp only [mem_evicted law]
  exact mem_evictWalk (leaves_nil loads) (fun m => (mem_evictOrder law m).mp) (evictOrder_nodup law)
    (fun m _ => List.not_mem_nil) split row state

theorem evicted_fits (loads : s.profileLaw) (c : Channel) (cs : Fin 120) :
    s.loadLeft s.evicted c cs.val ≤ s.capacity c cs.val := by
  have same : s.loadLeft s.evicted c cs.val = s.loadLeft (s.evictWalk s.arb.profile s.evictOrder) c cs.val := by
    simp only [loadLeft, mem_evicted law]
  rw [same]
  exact evictWalk_fits (leaves_nil loads) (mem_evictOrder law) (evictOrder_nodup law) c cs

/-- The profile that eviction leaves holds the loads of the entries that stay (R126, R136). -/
theorem evict_profile (loads : s.profileLaw) (c : Channel) (cs : Fin 120) :
    (s.evict.arb.profile.get c).get cs = s.loadLeft s.evicted c cs.val := by
  rw [evict, loads.suspendMany s.evicted .capacity c cs, loadLeft]
  refine congrArg List.sum (List.map_congr_left fun m _ => ?_)
  split
  · next out =>
    refine loadOf_of_unplaced ?_ c cs.val
    rw [suspendMany_placed (evicted_nodup law) (evicted_placed law)]
    simp [out]
  · next stays =>
    have apart := suspendMany_apart (evicted_held law) stays .capacity
    exact loadOf_of_row apart.row (congrArg (·.2.1) apart.aside.given) c cs.val

theorem evict_placed (m : LineNo) : s.evict.placed m = (s.placed m && !s.evicted.contains m) :=
  suspendMany_placed (evicted_nodup law) (evicted_placed law) .capacity m

theorem evict_out : (s.arb.placedOrder.filter fun l => !s.evict.placed l) = s.evicted := by
  refine List.filter_congr fun m mem => ?_
  rw [Bool.eq_iff_iff, List.contains_iff_mem, ← mem_evicted law]
  simp [evict_placed law, (law.placedHeld m).mp mem]

/-- Which entries are gone (R132), with the load left at a line written out. -/
theorem evict_criterion (loads : s.profileLaw) {before after : List LineNo} (split : s.evictOrder = before ++ l :: after)
    (row : s.row l = some e) (state : e.state = .placed φ) : s.evict.placed l = false ↔
      ∃ (cs : Fin 120) (v : Voice), s.voiceOn e φ cs.val = some v ∧ s.capacity v.channel cs.val <
        (lineNos.map fun m => if m ∈ before ∧ s.evict.placed m = false then 0 else s.loadOf v.channel cs.val m).sum := by
  have here : ∀ m ∈ before ++ l :: after, s.placed m = true := fun m mem => (mem_evictOrder law m).mp (split ▸ mem)
  have gone : ∀ m, (m ∈ before ∧ s.evict.placed m = false) ↔ m ∈ before.filter fun m => m ∈ s.evicted := fun m => by
    rw [List.mem_filter]
    refine and_congr_right fun mem => ?_
    simp [evict_placed law, here m (List.mem_append_left _ mem)]
  have left : s.evict.placed l = false ↔ l ∈ s.evicted := by simp [evict_placed law, here l (by simp)]
  simp only [left, mem_evicted_iff law loads split row state, Overloads, loadLeft, gone]

/-- A PLACED entry stays, or is suspended, or is that of a run that fails (R132, R136). -/
theorem evict_cases (row : s.row l = some e) (state : e.state = .placed φ) :
    (s.evict.row l = some e ∧ s.evict.line l = s.line l ∧ l ∈ s.evict.arb.placedOrder)
      ∨ (e.reqType ≠ .test ∧ s.evict.row l = some { e with state := .suspended, waited := 0, delayed := false }
          ∧ s.evict.line l = { s.line l with play := none } ∧ l ∈ s.evict.arb.waitQueue)
      ∨ (e.reqType = .test ∧ ((s.line l).run ≠ none → s.evict.row l = none ∧ (s.evict.line l).run = none
          ∧ (s.evict.line l).calStatus = .failed ∧ (s.evict.line l).calCause = some .supply
          ∧ (s.evict.line l).call = .idle)) := by
  have once := evicted_nodup law
  have placed := evicted_placed law
  have listed := suspendMany_listed once placed .capacity law
  have here := placed_of_placed row state
  by_cases out : l ∈ s.evicted
  · by_cases test : e.reqType = .test
    · refine .inr (.inr ⟨test, fun running => ?_⟩)
      obtain ⟨r, run⟩ := Option.ne_none_iff_exists'.mp running
      exact suspendMany_fails once placed .capacity out row test run
    · obtain ⟨held, line⟩ := suspendMany_stands once placed .capacity out row fun on => absurd on test
      refine .inr (.inl ⟨test, held, line, ?_⟩)
      rw [evict, listed.queued, List.mem_filter, mem_queueWith]
      exact ⟨.inl out, queued_of_unplaced held suspended_unplaced⟩
  · have apart := suspendMany_apart (evicted_held law) out .capacity
    refine .inl ⟨apart.row.trans row, apart.line, ?_⟩
    rw [evict, listed.placed, List.mem_filter, law.placedHeld]
    exact ⟨here, (placed_of_row apart.row).trans here⟩

end

/-! ### Eviction as the part that comes next -/

/-- The state in which a boundary's eviction is done: the lines in the queue stood there at the boundary (R132, R134). -/
def begun (s : State) : State := { s with boundary := some ⟨.warmUp, s.arb.waitQueue, false⟩ }

theorem begun_evictWalk (s : State) (p : Tab 4 (Tab 120 Nat)) (ls : List LineNo) :
    s.begun.evictWalk p ls = s.evictWalk p ls := by
  induction ls generalizing p with
  | nil => rfl
  | cons l ls ih =>
    simp only [evictWalk, ih]
    rfl

theorem begun_evicted (s : State) : s.begun.evicted = s.evicted := by
  simp only [evicted, begun_evictWalk]
  rfl

theorem runStage_eviction {b : Boundary} (next : b.next = .eviction) (s : State) :
    s.runStage b = s.begun.evict := by
  simp only [runStage, next]
  rfl

theorem exec_eviction_next {b : Boundary} (h : s.boundary = some b) (next : b.next = .eviction) (some' : s.evicted ≠ []) :
    exec .eviction s = .next (s.runStage b).settleLink := by
  change occurring (s.stageAhead .eviction && !s.evicted.isEmpty) (State.runThrough .eviction) s = _
  simp [occurring, finish, some', ← next, stageAhead_next h, runThrough_next h]

end Sys2Proof.Machine.State

open Sys2Proof Sys2Proof.Machine

/-- Settles O45: the walk's profile is at each line the loads of the lines that have not gone, and a line that stays
overloads no point with them. -/
theorem evictionLeavesNoOverload : Obligations.EvictionLeavesNoOverload := by
  intro s b held next some' law loads
  have law' : s.begun.arbiterLaw := law.of_same (.of_eq rfl rfl)
  have loads' : s.begun.profileLaw := loads.of_same (.of_eq rfl rfl)
  have once := State.evicted_nodup law'
  have placed := State.evicted_placed law'
  have listed := State.suspendMany_listed once placed .capacity law'
  have kept : Kept s s.begun.evict := (Kept.boundary _).trans (.suspendMany _ _)
  refine ⟨s.runStage b, State.exec_eviction_next held next some', rfl, ?_⟩
  rw [State.runStage_eviction next]
  dsimp only
  refine ⟨.of_given kept.given, kept.arb, fun before l after e φ split row state => ?_, listed.placed,
    State.suspendMany_waitQueue law' _ .capacity, fun l e mem row => ?_, fun c cs => ?_, fun l unplaced => ?_,
    fun l e φ row state => State.evict_cases law' row state⟩
  · exact State.evict_criterion law' loads' split row state
  · have out := State.evict_out law'
    change (s.arb.placedOrder.filter fun l => !s.begun.evict.placed l) = s.begun.evicted at out
    rw [out] at mem ⊢
    exact State.suspendMany_marked once placed .capacity mem row
  · rw [State.evict_profile law' loads' c cs]
    exact State.evicted_fits law' loads' c cs
  · have other : l ∉ s.begun.evicted := fun mem => by
      have here := placed l mem
      exact absurd (here.symm.trans unplaced) (by decide)
    have apart := State.suspendMany_apart (State.evicted_held law') other .capacity
    exact ⟨apart.row, apart.line⟩
end

section
/-! No command of the host moves a held boundary's work on (R132, R179; log 6): its next part stands through what ends an
event. -/

namespace Sys2Proof.Machine.State

variable {s : State}

/-! ### The call blocks -/

@[simp] theorem nextStage_updLine (l : LineNo) (f : Line → Line) (s : State) : (s.updLine l f).nextStage = s.nextStage := rfl

@[simp] theorem nextStage_updArb (f : Arbiter → Arbiter) (s : State) : (s.updArb f).nextStage = s.nextStage := rfl

@[simp] theorem nextStage_updLink (f : Link → Link) (s : State) : (s.updLink f).nextStage = s.nextStage := rfl

@[simp] theorem nextStage_markLine (k : ReportKind) (l : LineNo) (d : List Byte) (s : State) :
    (s.markLine k l d).nextStage = s.nextStage := nextStage_of_boundary (markLine_boundary ..)

@[simp] theorem nextStage_endCall (l : LineNo) (new : CallState) (c : EndCause) (s : State) :
    (s.endCall l new c).nextStage = s.nextStage := by
  have completed : (s.completeRecord l c).nextStage = s.nextStage := by
    unfold completeRecord
    split
    · rfl
    · exact nextStage_markLine ..
  unfold endCall
  dsimp only
  split
  · exact completed
  · exact (nextStage_markLine ..).trans completed

@[simp] theorem nextStage_standbyEvent (ev : StandbyEvent) (s : State) : (s.standbyEvent ev).nextStage = s.nextStage := by
  have reloaded : (s.reloadStandby ev).nextStage = s.nextStage := by
    unfold reloadStandby
    split <;> rfl
  unfold standbyEvent
  dsimp only
  split
  · exact (nextStage_of_boundary (markDevice_boundary ..)).trans reloaded
  · exact reloaded

@[simp] theorem nextStage_request (l : LineNo) (e : Entry) (s : State) : (s.request l e).nextStage = s.nextStage := by
  have asked : (s.asked l e).nextStage = s.nextStage := nextStage_standbyEvent _ _
  rw [request_eq]
  rcases tryAdmission_cases l e (s.asked l e) with ⟨φ, -, -, placed⟩ | ⟨-, joined⟩
  · rw [placed, nextStage_placeEntry, asked]
  · rw [joined, joinWaiting_eq, nextStage_updArb, asked]

@[simp] theorem nextStage_startAlarm (l : LineNo) (v : Voice) (n : Nat) (s : State) :
    (s.startAlarm l v n).nextStage = s.nextStage := by
  unfold startAlarm openCall
  simp

@[simp] theorem nextStage_endAlarm (l : LineNo) (s : State) : (s.endAlarm l).nextStage = s.nextStage := by
  unfold endAlarm
  simp

@[simp] theorem nextStage_disableLine (l : LineNo) (s : State) : (s.disableLine l).nextStage = s.nextStage := by
  unfold disableLine
  simp

@[simp] theorem nextStage_enableLine (l : LineNo) (s : State) : (s.enableLine l).nextStage = s.nextStage := by
  unfold enableLine
  split
  · simp
  · rfl

@[simp] theorem nextStage_ringAccepted (l : LineNo) (i : Slot) (e : PartyEntry) (n : Nat) (s : State) :
    (s.ringAccepted l i e n).nextStage = s.nextStage := by
  unfold ringAccepted openCall
  simp

@[simp] theorem nextStage_connectLine (l : LineNo) (s : State) : (s.connectLine l).nextStage = s.nextStage := by
  unfold connectLine updRecord markDigits
  dsimp only
  split <;> simp

@[simp] theorem nextStage_releaseLine (l : LineNo) (s : State) : (s.releaseLine l).nextStage = s.nextStage := by
  unfold releaseLine
  simp

@[simp] theorem nextStage_openRun (l : LineNo) (r : Run) (s : State) : (s.openRun l r).nextStage = s.nextStage := by
  unfold openRun
  simp

theorem nextStage_softReset (s : State) : s.softReset.nextStage = s.nextStage := by
  unfold nextStage softReset
  rw [Option.map_map]
  rfl

/-! ### Commands of the host -/

/-- From `s` to `t` the part of a boundary's work that comes next is the same. -/
def SameStage (s t : State) : Prop := t.nextStage = s.nextStage

theorem nextStage_forLines (f : LineNo → State → State × Status) (h : ∀ l u, (f l u).1.nextStage = u.nextStage)
    (ls : List LineNo) (s : State) : (forLines f ls s).1.nextStage = s.nextStage :=
  forLines_relates (R := SameStage) (fun _ => rfl) (fun h k => Eq.trans k h) h ls s

theorem nextStage_lineOptionsAt (f : WriteForm) (v : BitVec 4) (l : LineNo) (s : State) :
    (lineOptionsAt f v l s).1.nextStage = s.nextStage := by
  unfold lineOptionsAt takeOptions
  dsimp only
  repeat' split
  all_goals simp

theorem nextStage_lineLockAt (l : LineNo) (s : State) : (lineLockAt l s).1.nextStage = s.nextStage := by
  unfold lineLockAt
  split <;> rfl

theorem nextStage_alarmRingAt (n : Nat) (l : LineNo) (s : State) : (alarmRingAt n l s).1.nextStage = s.nextStage := by
  unfold alarmRingAt
  repeat' split
  all_goals simp

theorem nextStage_alarmStopAt (l : LineNo) (s : State) : (alarmStopAt l s).1.nextStage = s.nextStage := by
  unfold alarmStopAt
  dsimp only
  repeat' split
  all_goals simp

theorem nextStage_carry (c : HostCmd) (p : List Byte) (s : State) : (s.carry c p).1.nextStage = s.nextStage := by
  cases c <;> simp only [State.carry]
  case softReset => exact nextStage_softReset s
  case timebaseSet =>
    unfold carryTimebaseSet
    dsimp only
    split
    · rfl
    · exact nextStage_of_boundary (markDevice_boundary ..)
  case lineOptions => exact nextStage_forLines _ (fun l u => nextStage_lineOptionsAt _ _ l u) _ _
  case lineLock => exact nextStage_forLines _ nextStage_lineLockAt _ _
  case alarmRing => exact nextStage_forLines _ (fun l u => nextStage_alarmRingAt _ l u) _ _
  case alarmStop => exact nextStage_forLines _ nextStage_alarmStopAt _ _
  case ringParty =>
    unfold carryRingParty ringParty
    dsimp only
    repeat' split
    all_goals simp [ok, refuse, refuseAs]
  case ringCancel | connect | reject | disconnect | lineRelease | testAccess | testRelease | calibrate | calibrateCancel =>
    simp only [carryRingCancel, carryConnect, carryReject, carryDisconnect, carryLineRelease, carryTestAccess,
      carryTestRelease, carryCalibrate, carryCalibrateCancel]
    repeat' split
    all_goals simp [okState, ok, refuse, refuseAs]
  case arbiterRead | partyWrite | alarmIdentity | planCommit | planDiscard | lineLevels | lineLoads | numberingSet
      | cadencePut | cadenceStore | cadenceRead | cadenceClear =>
    simp only [carryArbiterRead, carryPartyWrite, carryAlarmIdentity, carryPlanCommit, carryPlanDiscard, carryLineLevels,
      carryLineLoads, carryNumberingSet, carryCadencePut, carryCadenceStore, carryCadenceRead, carryCadenceClear]
    repeat' split
    all_goals rfl
  all_goals rfl

/-! ### The link -/

theorem nextStage_answerFrame (f : Frame) (s : State) : (s.answerFrame f).1.nextStage = s.nextStage := by
  unfold answerFrame judge
  split
  · rfl
  · dsimp only
    split
    · split
      · rfl
      · exact nextStage_carry _ _ _
    · rfl

theorem nextStage_dispatch (n : Nat) (s : State) : (s.dispatch n).nextStage = s.nextStage := by
  induction n generalizing s with
  | zero => rfl
  | succ n ih =>
    unfold dispatch
    split
    · rfl
    · split
      · exact (ih _).trans (nextStage_answerFrame _ (s.updLink _))
      · rfl

theorem nextStage_transmit (s : State) : s.transmit.nextStage = s.nextStage := by
  unfold transmit choose
  split
  · rfl
  · split
    · rfl
    · split
      · rfl
      · unfold sendReport chosen
        repeat' split
        all_goals rfl

/-- What ends an event moves no boundary's work on (R179). -/
theorem nextStage_settleLink (s : State) : s.settleLink.nextStage = s.nextStage := by
  unfold settleLink dispatchAll
  rw [nextStage_dispatch, nextStage_transmit, nextStage_dispatch]

end Sys2Proof.Machine.State
end

section
/-! What each part of a boundary's work leaves (R132, R134, R140, R141), and the boundary's own record of it. -/

namespace Sys2Proof.Machine

/-- An entry whose wait is counted (R134), under a ring-wait threshold. -/
def Entry.counted (e : Entry) (threshold : Nat) : Entry :=
  { e with
    waited := min 255 (e.waited + 1)
    delayed := e.delayed || decide (threshold ≤ min 255 (e.waited + 1)) }

namespace State

variable {s t u : State} {l : LineNo} {e : Entry} {b : Boundary} {ls : List LineNo}

/-! ### The lines that stood in the queue -/

/-- From `s` to `t` the held work of a boundary forgets that some lines, all of a list, stood in the queue (R131, R134). -/
def Forgets (ls : List LineNo) (s t : State) : Prop :=
  ∃ keeps : LineNo → Bool, (∀ m, m ∉ ls → keeps m = true)
    ∧ t.boundary = s.boundary.map fun b => { b with stood := b.stood.filter keeps }

namespace Forgets

theorem of_boundary (h : t.boundary = s.boundary) : Forgets ls s t :=
  ⟨fun _ => true, fun _ _ => rfl, by simp [h]⟩

theorem trans (h : Forgets ls s t) (k : Forgets ls t u) : Forgets ls s u := by
  obtain ⟨keeps, others, boundary⟩ := h
  obtain ⟨keeps', others', boundary'⟩ := k
  refine ⟨fun m => keeps' m && keeps m, fun m other => by simp [others m other, others' m other], ?_⟩
  rw [boundary', boundary, Option.map_map]
  simp [Function.comp_def, List.filter_filter]

theorem leftQueue (mem : l ∈ ls) (s : State) : Forgets ls s (s.leftQueue l) :=
  ⟨(· != l), fun m other => by simpa using fun same : m = l => other (same ▸ mem), rfl⟩

theorem foldl {f : State → LineNo → State} (h : ∀ m ∈ ls, ∀ u, Forgets ls u (f u m)) (s : State) :
    Forgets ls s (ls.foldl f s) := by
  have each : ∀ ms, ms ⊆ ls → ∀ u, Forgets ls u (ms.foldl f u) := fun ms => by
    induction ms with
    | nil => exact fun _ u => of_boundary rfl
    | cons m ms ih =>
      intro sub u
      obtain ⟨here, rest⟩ := List.cons_subset.mp sub
      exact (h m here u).trans (ih rest _)
  exact each ls (List.Subset.refl ls) s

theorem failToIdle (mem : l ∈ ls) (c : CalCause) (s : State) : Forgets ls s (s.failToIdle l c) := by
  have removed : Forgets ls s (s.removeEntry l) := by
    unfold State.removeEntry
    split
    · exact of_boundary rfl
    · exact leftQueue mem (s.updArb _ |>.updLine l _)
  have failed : Forgets ls s (s.failRun l c) := by
    unfold State.failRun
    split
    · exact of_boundary rfl
    · exact removed.trans (of_boundary (markLine_boundary ..))
  unfold State.failToIdle
  split
  · exact of_boundary rfl
  · refine failed.trans (of_boundary ?_)
    unfold State.enter
    dsimp only
    split
    · rfl
    · exact markLine_boundary ..

theorem suspensionNotice (mem : l ∈ ls) (s : State) : Forgets ls s (s.suspensionNotice l) := by
  rcases suspensionNotice_cases l s with same | ⟨e, r, -, -, failed⟩
  · exact of_boundary (by rw [same])
  · rw [failed]
    exact failToIdle mem _ s

theorem suspendMany (ls : List LineNo) (c : SuspendCause) (s : State) : Forgets ls s (s.suspendMany ls c) := by
  have withdrawn : Forgets ls s (s.suspended ls) := by
    refine (foldl (f := fun t l => t.withdraw l) (fun m _ u => of_boundary ?_) s).trans (of_boundary rfl)
    unfold State.withdraw
    split <;> rfl
  have reported : Forgets ls (s.suspended ls) ((s.suspended ls).reportAll c ls) := by
    refine foldl (fun m _ u => of_boundary ?_) _
    unfold State.markSuspended
    split
    · rfl
    · exact markRing_boundary ..
  exact (withdrawn.trans reported).trans (foldl (fun m mem u => suspensionNotice mem u) _)

theorem walk (ms : List LineNo) (s : State) : Forgets lineNos s (s.walk ms) := by
  induction ms generalizing s with
  | nil => exact of_boundary rfl
  | cons m ms ih =>
    unfold State.walk
    split
    · exact ih s
    · split
      · exact ih s
      · split
        · exact of_boundary rfl
        · refine trans ⟨(· != m), fun n other => absurd (mem_lineNos n) other, ?_⟩ (ih _)
          exact placeEntry_boundary ..

end Forgets

/-! ### Eviction and the queue walk -/

theorem runStage_eviction_boundary (next : b.next = .eviction) (s : State) : ∃ stood,
    (s.runStage b).boundary = some ⟨.warmUp, stood, false⟩ ∧ (s.arbiterLaw → stood = s.arb.waitQueue) := by
  obtain ⟨keeps, others, boundary⟩ := Forgets.suspendMany s.begun.evicted .capacity s.begun
  refine ⟨s.arb.waitQueue.filter keeps, ?_, fun law => List.filter_eq_self.mpr fun m mem => others m fun out => ?_⟩
  · rw [runStage_eviction next, evict, boundary]
    rfl
  · have law' : s.begun.arbiterLaw := law.of_same (.of_eq rfl rfl)
    have waits := (law'.queueHeld m).mp mem
    simp [queued_iff, evicted_placed law' m out] at waits

/-- A suspension of no line leaves the state as it is. -/
theorem suspendMany_nil (law : s.arbiterLaw) (c : SuspendCause) : s.suspendMany [] c = s := by
  have queue : s.alarmSection ++ s.ordinarySection = s.arb.waitQueue := sections_of_pairwise law.alarmsFirst
  have joined : s.suspendMany [] c = s.updArb fun a => { a with waitQueue := s.alarmSection ++ s.ordinarySection } := by
    change s.joinSuspended [] = _
    simp [joinSuspended]
  rw [joined, queue]
  rfl

/-- Where no entry goes, a boundary's eviction changes nothing but its own record. -/
theorem runStage_eviction_nil (next : b.next = .eviction) (law : s.arbiterLaw) (none' : s.evicted = []) :
    s.runStage b = s.begun := by
  rw [runStage_eviction next, evict, begun_evicted, none']
  exact suspendMany_nil (s := s.begun) (law.of_same (.of_eq rfl rfl)) _

theorem runStage_queueWalk_boundary (next : b.next = .queueWalk) (s : State) : ∃ stood,
    (s.runStage b).boundary = some ⟨.waitCounting, stood, b.becameOn⟩ := by
  simp only [runStage, next, walkQueue]
  split
  · obtain ⟨keeps, -, boundary⟩ := Forgets.walk s.arb.waitQueue { s with boundary := some { b with next := .waitCounting } }
    exact ⟨b.stood.filter keeps, boundary⟩
  · exact ⟨b.stood, rfl⟩

/-! ### Warm-up -/

theorem warmUp_boundary (s : State) : s.warmUp.boundary = s.boundary := by
  unfold warmUp
  split
  · rfl
  · rfl
  · split
    · exact markDevice_boundary ..
    · rfl

theorem warmUpEnds_iff (a : Arbiter) : a.warmUpEnds = true ↔ a.supply = .warming ∧ a.warmUpCount ≤ 1 := by
  simp [Arbiter.warmUpEnds]

theorem warmUp_of_not_warming (h : s.arb.supply ≠ .warming) : s.warmUp = s := by
  unfold warmUp
  split
  · rfl
  · rfl
  · contradiction

/-- A warm-up count above 1 falls by 1 (R141). -/
theorem warmUp_counts (warming : s.arb.supply = .warming) (more : 2 ≤ s.arb.warmUpCount) :
    s.warmUp = s.updArb fun a => { a with warmUpCount := a.warmUpCount - 1 } := by
  have goes_on : ¬s.arb.warmUpEnds = true := by
    rw [warmUpEnds_iff]
    omega
  simp only [warmUp, warming, goes_on, if_false, Bool.false_eq_true]

/-- A warm-up that ends makes the supply ON (R141). -/
theorem warmUp_ends (warming : s.arb.supply = .warming) (last : s.arb.warmUpCount ≤ 1) : s.warmUp = s.supplyOn := by
  have ends : s.arb.warmUpEnds = true := (warmUpEnds_iff _).mpr ⟨warming, last⟩
  simp only [warmUp, warming, ends, if_true]

/-! ### Wait counting -/

/-- From `s` to `t` rows and reports alone have changed. -/
def RowsOnly (s t : State) : Prop := ∃ rows link, t = { s with arb := { s.arb with rows := rows }, link := link }

namespace RowsOnly

theorem refl (s : State) : RowsOnly s s := ⟨s.arb.rows, s.link, rfl⟩

theorem trans (h : RowsOnly s t) (k : RowsOnly t u) : RowsOnly s u := by
  obtain ⟨rows, link, rfl⟩ := h
  obtain ⟨rows', link', rfl⟩ := k
  exact ⟨rows', link', rfl⟩

theorem eq (h : RowsOnly s t) : t = { s with arb := { s.arb with rows := t.arb.rows }, link := t.link } := by
  obtain ⟨rows, link, rfl⟩ := h
  rfl

theorem arb (h : RowsOnly s t) : t.arb = { s.arb with rows := t.arb.rows } := by
  obtain ⟨rows, link, rfl⟩ := h
  rfl

theorem lines (h : RowsOnly s t) : t.lines = s.lines := by
  obtain ⟨rows, link, rfl⟩ := h
  rfl

theorem boundary (h : RowsOnly s t) : t.boundary = s.boundary := by
  obtain ⟨rows, link, rfl⟩ := h
  rfl

theorem threshold (h : RowsOnly s t) : t.arb.waitThreshold = s.arb.waitThreshold := by rw [h.arb]

theorem waitQueue (h : RowsOnly s t) : t.arb.waitQueue = s.arb.waitQueue := by rw [h.arb]

end RowsOnly

theorem countWait_of_none (h : s.row l = none) : s.countWait l = s := by simp [countWait, h]

theorem countWait_of_reported (h : s.row l = some e) (quiet : s.arb.delays e = false) :
    s.countWait l = s.setRow l (some (e.counted s.arb.waitThreshold)) := by
  have stands : (e.delayed || decide (s.arb.waitThreshold ≤ min 255 (e.waited + 1))) = e.delayed := by
    cases reported : e.delayed with
    | true => exact Bool.true_or _
    | false => simpa [Arbiter.delays, reported] using quiet
  simp only [countWait, h, quiet, Bool.false_eq_true, if_false, Entry.counted, stands]

/-- A wait that reaches the threshold is reported (R134). -/
theorem countWait_of_delays (h : s.row l = some e) (delays : s.arb.delays e = true) : s.countWait l =
    (s.setRow l (some (e.counted s.arb.waitThreshold))).markRing l .delayed none (e.counted s.arb.waitThreshold)
      (min 255 (e.waited + 1)) (s.arb.queuePosition l) := by
  have reported : (e.delayed || decide (s.arb.waitThreshold ≤ min 255 (e.waited + 1))) = true := by
    simp only [Arbiter.delays, Bool.and_eq_true] at delays
    rw [delays.1, Bool.or_true]
  simp only [countWait, h, delays, if_true, Entry.counted, reported]

theorem countWait_rowsOnly (l : LineNo) (s : State) : RowsOnly s (s.countWait l) := by
  cases row : s.row l with
  | none => rw [countWait_of_none row]; exact .refl s
  | some e =>
    cases delays : s.arb.delays e with
    | false =>
      rw [countWait_of_reported row delays]
      exact ⟨_, _, rfl⟩
    | true =>
      rw [countWait_of_delays row delays]
      exact ⟨_, _, mark_eq ..⟩

theorem row_countWait (l m : LineNo) (s : State) : (s.countWait l).row m =
    if m = l then (s.row l).map (fun e => e.counted s.arb.waitThreshold) else s.row m := by
  cases row : s.row l with
  | none =>
    rw [countWait_of_none row]
    split
    · next same => rw [same, row]; rfl
    · rfl
  | some e =>
    cases delays : s.arb.delays e with
    | false => rw [countWait_of_reported row delays, row_setRow]; rfl
    | true =>
      rw [countWait_of_delays row delays]
      exact (row_markLine ..).trans (row_setRow ..)

theorem countWait_apart (s : State) {m : LineNo} (h : l ≠ m) : Apart l s (s.countWait m) := by
  have only := countWait_rowsOnly m s
  refine ⟨.of_kept (.countWait m), ?_, by rw [only.eq]; rfl, by rw [row_countWait, if_neg h]⟩
  cases row : s.row m with
  | none => rw [countWait_of_none row]; exact .refl l s
  | some e =>
    cases delays : s.arb.delays e with
    | false => rw [countWait_of_reported row delays]; exact .of_link rfl
    | true =>
      rw [countWait_of_delays row delays]
      exact Unmarked.trans (t := s.setRow m _) (.of_link rfl) (.markLine _ _ h)

/-- The waits of lines counted one after another (R134). -/
def countAll (ls : List LineNo) (s : State) : State := ls.foldl (fun t l => t.countWait l) s

theorem countAll_cons (l : LineNo) (ls : List LineNo) (s : State) :
    s.countAll (l :: ls) = (s.countWait l).countAll ls := rfl

theorem countAll_rowsOnly (ls : List LineNo) (s : State) : RowsOnly s (s.countAll ls) := by
  induction ls generalizing s with
  | nil => exact .refl s
  | cons l ls ih => exact (countWait_rowsOnly l s).trans (ih _)

theorem row_countAll (once : ls.Nodup) (m : LineNo) (s : State) : (s.countAll ls).row m =
    if m ∈ ls then (s.row m).map (fun e => e.counted s.arb.waitThreshold) else s.row m := by
  induction ls generalizing s with
  | nil => rfl
  | cons l ls ih =>
    obtain ⟨first, rest⟩ := List.nodup_cons.mp once
    rw [countAll_cons, ih rest, (countWait_rowsOnly l s).threshold, row_countWait]
    by_cases same : m = l
    · simp [same, first]
    · simp [same]

/-- Where no wait reaches the threshold unreported, no report is marked (R134). -/
theorem countAll_link (once : ls.Nodup) (s : State)
    (quiet : ∀ l ∈ ls, ∀ e, s.row l = some e → s.arb.delays e = false) : (s.countAll ls).link = s.link := by
  induction ls generalizing s with
  | nil => rfl
  | cons l ls ih =>
    obtain ⟨first, rest⟩ := List.nodup_cons.mp once
    have here : (s.countWait l).link = s.link := by
      cases row : s.row l with
      | none => rw [countWait_of_none row]
      | some e =>
        rw [countWait_of_reported row (quiet l List.mem_cons_self e row)]
        rfl
    rw [countAll_cons, ih rest _ fun m mem e row => ?_, here]
    rw [row_countWait, if_neg (ne_of_mem_of_not_mem mem first)] at row
    rw [(countWait_rowsOnly l s).arb]
    exact quiet m (List.mem_cons_of_mem l mem) e row

/-- The RING report of a wait that reaches the threshold (R134, R144). -/
theorem countWait_marked (row : s.row l = some e) (delays : s.arb.delays e = true) :
    (s.countWait l).marked s.link.mask .ring l
      ([lineByte l, 1, 0, 0xFF, e.reqType.code, e.state.code, toByte (min 255 (e.waited + 1)),
        toByte (s.arb.queuePosition l)] ++ stampBytes s.stamp) := by
  rw [countWait_of_delays row delays]
  exact markLine_marked _ _ _ _

/-- The same with the waits of other lines counted before and after it. -/
theorem countAll_marked (once : ls.Nodup) (mem : l ∈ ls) (row : s.row l = some e) (delays : s.arb.delays e = true) :
    (s.countAll ls).marked s.link.mask .ring l
      ([lineByte l, 1, 0, 0xFF, e.reqType.code, e.state.code, toByte (min 255 (e.waited + 1)),
        toByte (s.arb.queuePosition l)] ++ stampBytes s.stamp) := by
  obtain ⟨before, ahead, behind⟩ := Apart.foldl_at (fun u h => countWait_apart u h) once mem s
  have only : RowsOnly s (before.foldl (fun t l => t.countWait l) s) := countAll_rowsOnly before s
  have delays' : (before.foldl (fun t l => t.countWait l) s).arb.delays e = true := by
    rw [only.arb]
    exact delays
  have marked := countWait_marked (ahead.row.trans row) delays'
  have position : (before.foldl (fun t l => t.countWait l) s).arb.queuePosition l = s.arb.queuePosition l := by
    rw [only.arb]
    rfl
  rw [ahead.aside.mask, ahead.aside.stamp, position] at marked
  exact behind.unmarked.marked marked

/-- The lines whose waits are counted (R134). -/
def waiting (stood : List LineNo) (s : State) : List LineNo := lineNos.filter (s.arb.counts stood)

theorem waiting_nodup (stood : List LineNo) (s : State) : (s.waiting stood).Nodup :=
  (lineNos_eq ▸ List.nodup_finRange 16 : lineNos.Nodup).filter _

theorem mem_waiting {stood : List LineNo} : l ∈ s.waiting stood ↔ l ∈ stood ∧ l ∈ s.arb.waitQueue := by
  simp [waiting, mem_lineNos, Arbiter.counts]

/-- Wait counting as the part that comes next (R134). -/
theorem runStage_waitCounting (next : b.next = .waitCounting) (s : State) : s.runStage b =
    ({ s with boundary := some { b with next := .standbyCounting } } : State).countAll (s.waiting b.stood) := by
  simp only [runStage, next]
  rfl

/-! ### Standby counting -/

theorem standbyFalls_iff (s : State) (becameOn : Bool) :
    s.arb.standbyFalls becameOn = true ↔ s.arb.supply = .on ∧ (∀ l, s.row l = none) ∧ becameOn = false := by
  simp only [Arbiter.standbyFalls, Arbiter.empty, Bool.and_eq_true, beq_iff_eq, List.all_eq_true, Option.isNone_iff_eq_none,
    Bool.not_eq_true', and_assoc]
  refine and_congr_right fun _ => and_congr_left fun _ => ?_
  exact ⟨fun h l => h l (mem_lineNos l), fun h l _ => h l⟩

/-- The count is held while an entry stands, and at the boundary that made the supply ON (R140). -/
theorem standbyCounting_held {becameOn : Bool} (h : s.arb.supply ≠ .on ∨ becameOn = true ∨ ∃ l, s.row l ≠ none) :
    s.standbyCounting becameOn = s := by
  refine if_neg fun falls => ?_
  obtain ⟨on, empty, before⟩ := (standbyFalls_iff s becameOn).mp falls
  rcases h with off | became | ⟨l, row⟩
  · exact off on
  · exact absurd became (by simp [before])
  · exact row (empty l)

theorem standbyCounting_counts (on : s.arb.supply = .on) (empty : ∀ l, s.row l = none) (more : 2 ≤ s.arb.standbyCount) :
    s.standbyCounting false = s.updArb fun a => { a with standbyCount := a.standbyCount - 1 } := by
  have falls := (standbyFalls_iff s false).mpr ⟨on, empty, rfl⟩
  have goes_on : ¬s.arb.standbyCount ≤ 1 := by omega
  simp only [standbyCounting, falls, goes_on, if_true, if_false]

/-- A count that runs out takes the supply to STANDBY (R140). -/
theorem standbyCounting_ends (on : s.arb.supply = .on) (empty : ∀ l, s.row l = none) (last : s.arb.standbyCount ≤ 1) :
    s.standbyCounting false =
      (s.updArb fun a => { a with supply := .standby, standbyCount := 0 }).markSupply .standby none := by
  have falls := (standbyFalls_iff s false).mpr ⟨on, empty, rfl⟩
  simp only [standbyCounting, falls, last, if_true]

theorem standbyCounting_boundary (becameOn : Bool) (s : State) : (s.standbyCounting becameOn).boundary = s.boundary := by
  unfold standbyCounting
  split
  · split
    · exact markDevice_boundary ..
    · rfl
  · rfl

end State
end Sys2Proof.Machine
end

section
/-! The arbiter's work at a frame boundary as a whole, and its parts taken by their commands (R132, R134, R140, R141; log 6). -/

namespace Sys2Proof.Machine

theorem Stage.eq_last_of_after {g : Stage} (h : g.after = none) : g = .standbyCounting := by
  cases g with
  | standbyCounting => rfl
  | eviction | warmUp | queueWalk | waitCounting => contradiction

namespace State

variable {s : State} {b : Boundary} {g : Stage}

/-! ### Runs through the parts -/

/-- The next part of the boundary's work, if one is held. -/
def advance (s : State) : State :=
  match s.boundary with
  | none => s
  | some b => s.runStage b

theorem runUpTo_advance (n : Nat) (s : State) :
    s.runUpTo .standbyCounting (n + 1) = s.advance.runUpTo .standbyCounting n := by
  cases h : s.boundary with
  | none =>
    have stays : s.advance = s := by simp [advance, h]
    rw [stays, runUpTo_none _ h, runUpTo_none _ h]
  | some b =>
    have next : s.advance = s.runStage b := by simp [advance, h]
    rw [next, runUpTo_next n h (rank_le_last _)]

theorem runBoundary_eq (s : State) : s.runBoundary = s.advance.advance.advance.advance.advance := by
  simp only [runBoundary, runThrough, runUpTo_advance]
  rfl

/-- Fuel beyond that for the parts still to come changes nothing. -/
theorem runUpTo_more (n : Nat) (s : State) (enough : ∀ b, s.boundary = some b → 5 ≤ n + b.next.rank) :
    s.runUpTo g (n + 1) = s.runUpTo g n := by
  induction n generalizing s with
  | zero =>
    cases h : s.boundary with
    | none => rw [runUpTo_none _ h, runUpTo_none _ h]
    | some b =>
      have fuel := enough b h
      have last : b.next.rank ≤ 4 := rank_le_last b.next
      omega
  | succ n ih =>
    cases h : s.boundary with
    | none => rw [runUpTo_none _ h, runUpTo_none _ h]
    | some b =>
      by_cases ahead : b.next.rank ≤ g.rank
      · rw [runUpTo_next (n + 1) h ahead, runUpTo_next n h ahead]
        refine ih _ fun c hc => ?_
        have rank := Stage.rank_after (next_of_runStage hc)
        have fuel := enough b h
        omega
      · rw [runUpTo_past _ h (Nat.not_le.mp ahead), runUpTo_past _ h (Nat.not_le.mp ahead)]

/-- A run goes on from the part that comes next. -/
theorem runThrough_runStage (h : s.boundary = some b) (ahead : b.next.rank ≤ g.rank) :
    s.runThrough g = (s.runStage b).runThrough g := by
  rw [runThrough, runThrough, runUpTo_next 4 h ahead]
  refine (runUpTo_more 4 _ fun c hc => ?_).symm
  have rank := Stage.rank_after (next_of_runStage hc)
  omega

/-- A run through a part leaves only parts after it. -/
theorem runUpTo_passes (n : Nat) (s : State) (enough : ∀ b, s.boundary = some b → 5 ≤ n + b.next.rank) {c : Boundary}
    (left : (s.runUpTo g n).boundary = some c) : g.rank < c.next.rank := by
  induction n generalizing s with
  | zero =>
    have fuel := enough c left
    have last : c.next.rank ≤ 4 := rank_le_last c.next
    omega
  | succ n ih =>
    cases h : s.boundary with
    | none =>
      rw [runUpTo_none _ h, h] at left
      contradiction
    | some b =>
      by_cases ahead : b.next.rank ≤ g.rank
      · rw [runUpTo_next n h ahead] at left
        refine ih _ (fun d hd => ?_) left
        have rank := Stage.rank_after (next_of_runStage hd)
        have fuel := enough b h
        omega
      · rw [runUpTo_past _ h (Nat.not_le.mp ahead), h] at left
        cases left
        exact Nat.not_le.mp ahead

theorem runThrough_passes {c : Boundary} (left : (s.runThrough g).boundary = some c) : g.rank < c.next.rank :=
  runUpTo_passes 5 s (fun _ _ => Nat.le_add_right _ _) left

/-- The parts before a part. -/
def runBefore (g : Stage) (s : State) : State :=
  match g with
  | .eviction => s
  | .warmUp => s.runThrough .eviction
  | .queueWalk => s.runThrough .warmUp
  | .waitCounting => s.runThrough .queueWalk
  | .standbyCounting => s.runThrough .waitCounting

theorem runBefore_runStage (h : s.boundary = some b) (ahead : b.next.rank < g.rank) :
    s.runBefore g = (s.runStage b).runBefore g := by
  cases g with
  | eviction => exact absurd ahead (Nat.not_lt_zero _)
  | warmUp => exact runThrough_runStage h (Nat.le_of_lt_succ ahead)
  | queueWalk => exact runThrough_runStage h (Nat.le_of_lt_succ ahead)
  | waitCounting => exact runThrough_runStage h (Nat.le_of_lt_succ ahead)
  | standbyCounting => exact runThrough_runStage h (Nat.le_of_lt_succ ahead)

theorem runBefore_next (h : s.boundary = some b) : s.runBefore b.next = s := by
  cases next : b.next with
  | eviction => rfl
  | warmUp => exact runThrough_past h (by rw [next]; decide)
  | queueWalk => exact runThrough_past h (by rw [next]; decide)
  | waitCounting => exact runThrough_past h (by rw [next]; decide)
  | standbyCounting => exact runThrough_past h (by rw [next]; decide)

/-! ### Parts taken by their commands -/

/-- A command that takes a part with those still before it, where the part finds something to do (log 4, 6). -/
def Takes (g : Stage) (i : Instr) (finds : State → Bool) : Prop :=
  ∀ s : State, exec i s = occurring (s.stageAhead g && finds (s.runBefore g)) (State.runThrough g) s

theorem takes_of_mem {l : LineNo} {i : Instr} (mem : (g, i) ∈ [(Stage.eviction, Instr.eviction), (.warmUp, .warmUpEnd),
    (.queueWalk, .queueWalk), (.waitCounting, .ringDelayed l), (.standbyCounting, .standbyTimeout)]) :
    ∃ finds, Takes g i finds := by
  simp only [List.mem_cons, Prod.mk.injEq, List.not_mem_nil, or_false] at mem
  rcases mem with ⟨rfl, rfl⟩ | ⟨rfl, rfl⟩ | ⟨rfl, rfl⟩ | ⟨rfl, rfl⟩ | ⟨rfl, rfl⟩
  · exact ⟨fun u => !u.evicted.isEmpty, fun s => rfl⟩
  · exact ⟨fun u => u.arb.warmUpEnds, fun s => rfl⟩
  · exact ⟨fun u => u.arb.supply == .on, fun s => rfl⟩
  · exact ⟨fun u => u.delaysNext l, fun s => rfl⟩
  · exact ⟨fun u => u.standbyEnds, fun s => rfl⟩

namespace Takes

variable {i : Instr} {finds : State → Bool}

/-- With no boundary's work held the command does nothing. -/
theorem none (takes : Takes g i finds) (h : s.boundary = none) : exec i s = .next s := by
  simp [takes s, occurring, stageAhead, h]

/-- A part is not taken a second time. -/
theorem past (takes : Takes g i finds) (h : s.boundary = some b) (past : g.rank < b.next.rank) : exec i s = .next s := by
  simp [takes s, occurring, stageAhead, h, Nat.not_le.mpr past]

/-- The part that comes next. -/
theorem next (takes : Takes b.next i finds) (h : s.boundary = some b) (found : finds s = true) :
    exec i s = .next (s.runStage b).settleLink := by
  simp [takes s, occurring, finish, stageAhead_next h, runBefore_next h, found, runThrough_next h]

theorem taken (takes : Takes g i finds) (h : s.boundary = some b) (ahead : b.next.rank ≤ g.rank)
    (found : finds (s.runBefore g) = true) : exec i s = .next (s.runThrough g).settleLink := by
  simp [takes s, occurring, finish, stageAhead, h, ahead, found]

theorem not_found (takes : Takes g i finds) (found : finds (s.runBefore g) = false) : exec i s = .next s := by
  simp [takes s, occurring, found]

/-- A part is taken with the parts still before it. -/
theorem before (takes : Takes g i finds) (h : s.boundary = some b) (ahead : b.next.rank < g.rank) :
    (exec i (s.runStage b) ≠ .next (s.runStage b) → exec i s = exec i (s.runStage b))
      ∧ (exec i (s.runStage b) = .next (s.runStage b) → exec i s = .next s) := by
  have reached := runBefore_runStage h ahead
  cases found : finds (s.runBefore g) with
  | false =>
    have stays : exec i (s.runStage b) = .next (s.runStage b) := takes.not_found (by rw [← reached, found])
    exact ⟨fun moves => absurd stays moves, fun _ => takes.not_found found⟩
  | true =>
    obtain ⟨c, left, rank⟩ : ∃ c, (s.runStage b).boundary = some c ∧ c.next.rank ≤ g.rank := by
      cases left : (s.runStage b).boundary with
      | none =>
        have after := nextStage_runStage b s
        rw [nextStage, left] at after
        have bound := rank_le_last g
        rw [Stage.eq_last_of_after after.symm] at ahead
        omega
      | some c =>
        have rank := Stage.rank_after (next_of_runStage left)
        exact ⟨c, rfl, by omega⟩
    have here := takes.taken h ahead.le found
    have there := takes.taken left rank (by rw [← reached, found])
    refine ⟨fun _ => by rw [here, there, runThrough_runStage h ahead.le], fun stays => ?_⟩
    rw [there] at stays
    have stage := nextStage_settleLink ((s.runStage b).runThrough g)
    rw [Host.Outcome.next.inj stays, nextStage, left, nextStage, eq_comm, Option.map_some, Option.map_eq_some_iff] at stage
    obtain ⟨d, passed, same⟩ := stage
    have past := runThrough_passes passed
    rw [same] at past
    omega

end Takes

/-! ### What a part leaves of a boundary -/

theorem runStage_warmUp (next : b.next = .warmUp) (s : State) :
    s.runStage b = State.warmUp { s with boundary := some ⟨.queueWalk, b.stood, s.arb.warmUpEnds⟩ } := by
  simp only [runStage, next]

theorem runStage_warmUp_cold (next : b.next = .warmUp) (cold : s.arb.supply ≠ .warming) :
    s.runStage b = { s with boundary := some ⟨.queueWalk, b.stood, s.arb.warmUpEnds⟩ } := by
  rw [runStage_warmUp next]
  exact warmUp_of_not_warming cold

theorem runStage_warmUp_counts (next : b.next = .warmUp) (warming : s.arb.supply = .warming) (more : 2 ≤ s.arb.warmUpCount) :
    s.runStage b =
      { s with
        boundary := some ⟨.queueWalk, b.stood, s.arb.warmUpEnds⟩
        arb := { s.arb with warmUpCount := s.arb.warmUpCount - 1 } } := by
  rw [runStage_warmUp next]
  exact warmUp_counts warming more

/-- What the end of a warm-up leaves (R141, R143). -/
theorem supplyOn_leaves (s : State) :
    s.supplyOn.arb = { s.arb with supply := .on, warmUpCount := 0, standbyCount := s.arb.standbyFrames }
      ∧ s.supplyOn.lines = s.lines ∧ s.supplyOn.link.core = s.link.core
      ∧ s.supplyOn.markedDevice s.link.mask .supply ([2, 0xFF, 2, toByte s.arb.faults.toNat] ++ stampBytes s.stamp) :=
  ⟨mark_arb .., mark_lines .., (Kept.markSupply (s := s.updArb _) .on none).link, markSupply_marked .on none (s.updArb _)⟩

theorem runStage_warmUp_ends (next : b.next = .warmUp) (warming : s.arb.supply = .warming) (last : s.arb.warmUpCount ≤ 1) :
    s.runStage b = State.supplyOn { s with boundary := some ⟨.queueWalk, b.stood, s.arb.warmUpEnds⟩ } := by
  rw [runStage_warmUp next]
  exact warmUp_ends warming last

theorem runStage_standbyCounting (next : b.next = .standbyCounting) (s : State) :
    s.runStage b = State.standbyCounting b.becameOn { s with boundary := none } := by
  simp only [runStage, next]

/-- What the end of a standby count leaves (R140, R143). -/
theorem standbyCounting_leaves (on : s.arb.supply = .on) (empty : ∀ l, s.row l = none) (last : s.arb.standbyCount ≤ 1) :
    let t := s.standbyCounting false
    t.arb = { s.arb with supply := .standby, standbyCount := 0 } ∧ t.lines = s.lines ∧ t.link.core = s.link.core
      ∧ t.markedDevice s.link.mask .supply ([0, 0xFF, 0, toByte s.arb.faults.toNat] ++ stampBytes s.stamp) := by
  rw [standbyCounting_ends on empty last]
  exact ⟨mark_arb .., mark_lines .., (Kept.markSupply (s := s.updArb _) .standby none).link,
    markSupply_marked .standby none (s.updArb _)⟩

theorem runStage_queueWalk (next : b.next = .queueWalk) (s : State) :
    s.runStage b = State.walkQueue { s with boundary := some { b with next := .waitCounting } } := by
  simp only [runStage, next]

/-- The waits that a boundary counts (R134). -/
theorem row_runStage_waitCounting (next : b.next = .waitCounting) (m : LineNo) (s : State) : (s.runStage b).row m =
    if m ∈ b.stood ∧ m ∈ s.arb.waitQueue then (s.row m).map (fun e => e.counted s.arb.waitThreshold) else s.row m := by
  rw [runStage_waitCounting next, row_countAll (waiting_nodup ..)]
  simp only [mem_waiting]
  rfl

theorem runStage_waitCounting_rowsOnly (next : b.next = .waitCounting) (s : State) :
    RowsOnly { s with boundary := some { b with next := .standbyCounting } } (s.runStage b) := by
  rw [runStage_waitCounting next]
  exact countAll_rowsOnly ..

theorem delays_eq_false_iff (a : Arbiter) (e : Entry) :
    a.delays e = false ↔ e.delayed = true ∨ min 255 (e.waited + 1) < a.waitThreshold := by
  rw [← Bool.not_eq_true, Arbiter.delays, Bool.and_eq_true, decide_eq_true_eq, Bool.not_eq_true', not_and_or, not_le,
    Bool.not_eq_false, or_comm]

theorem warmUpEnds_eq (s : State) :
    s.arb.warmUpEnds = decide (s.arb.supply = .warming ∧ s.arb.warmUpCount ≤ 1) := by
  rw [Bool.eq_iff_iff, warmUpEnds_iff, decide_eq_true_eq]

/-! ### The events of a boundary -/

/-- The warm-up's end by its command (R141). -/
theorem exec_warmUpEnd_next (h : s.boundary = some b) (next : b.next = .warmUp) (warming : s.arb.supply = .warming)
    (last : s.arb.warmUpCount ≤ 1) : exec .warmUpEnd s = .next (s.runStage b).settleLink := by
  have takes : Takes b.next .warmUpEnd fun u => u.arb.warmUpEnds := by
    rw [next]
    exact fun _ => rfl
  exact takes.next h ((warmUpEnds_iff _).mpr ⟨warming, last⟩)

/-- The report of a wait by its command (R134). -/
theorem exec_ringDelayed_next {l : LineNo} {e : Entry} (h : s.boundary = some b) (next : b.next = .waitCounting)
    (stood : l ∈ b.stood) (waits : l ∈ s.arb.waitQueue) (row : s.row l = some e) (delays : s.arb.delays e = true) :
    exec (.ringDelayed l) s = .next (s.runStage b).settleLink := by
  have takes : Takes b.next (.ringDelayed l) fun u => u.delaysNext l := by
    rw [next]
    exact fun _ => rfl
  refine takes.next h ?_
  simp [delaysNext, h, row, Arbiter.counts, stood, waits, delays]

/-- The end of the standby count by its command (R140). -/
theorem exec_standbyTimeout_next (h : s.boundary = some b) (next : b.next = .standbyCounting)
    (before : b.becameOn = false) (on : s.arb.supply = .on) (empty : ∀ l, s.row l = none) (last : s.arb.standbyCount ≤ 1) :
    exec .standbyTimeout s = .next (s.runStage b).settleLink := by
  have takes : Takes b.next .standbyTimeout fun u => u.standbyEnds := by
    rw [next]
    exact fun _ => rfl
  refine takes.next h ?_
  have falls := (standbyFalls_iff s b.becameOn).mpr ⟨on, empty, before⟩
  simp [standbyEnds, h, falls, last]

end State
end Sys2Proof.Machine

open Sys2Proof Sys2Proof.Machine

/-- Settles O47: by the equations of the parts, one for each case of what a part finds, and since no host command that a
settled link carries out moves the held work on. -/
theorem boundaryCounts : Obligations.BoundaryCounts := by
  refine ⟨fun s => ⟨State.runBoundary_eq s, State.runBoundary_boundary s, rfl⟩, fun s b held => ?_,
    fun s l g i mem => ?_, fun s b held => ?_⟩
  · refine ⟨fun next => ?_, fun next => ?_, fun next => ?_, fun next => ?_, fun next => ?_⟩
    · refine ⟨State.runStage_eviction_boundary next s, fun law none' => ?_⟩
      rw [State.runStage_eviction_nil next law none']
      rfl
    · have stage := State.runStage_warmUp next s
      refine ⟨?_, fun cold => ?_, fun warming more => ?_⟩
      · rw [stage, State.warmUp_boundary, ← State.warmUpEnds_eq]
      · rw [State.runStage_warmUp_cold next cold]
      · rw [State.runStage_warmUp_counts next warming more]
    · refine ⟨State.runStage_queueWalk_boundary next s, fun off => ?_⟩
      rw [State.runStage_queueWalk next]
      exact if_neg off
    · have only := State.runStage_waitCounting_rowsOnly next s
      have rows := fun l => State.row_runStage_waitCounting next l s
      refine ⟨only.boundary, ?_, fun l other => ?_, fun l e counted row => ?_, fun quiet => ?_⟩
      · exact only.eq.trans (by rw [only.boundary])
      · rw [rows, if_neg other]
      · rw [rows, if_pos counted, row]
        rfl
      · rw [State.runStage_waitCounting next]
        exact State.countAll_link (State.waiting_nodup ..) _ fun l mem e row =>
          (State.delays_eq_false_iff ..).mpr (quiet l e (State.mem_waiting.mp mem) row)
    · have stage := State.runStage_standbyCounting next s
      refine ⟨?_, fun on before empty more => ?_, fun holds => ?_⟩
      · rw [stage, State.standbyCounting_boundary]
      · rw [stage, before]
        exact State.standbyCounting_counts on empty more
      · rw [stage]
        exact State.standbyCounting_held holds
  · obtain ⟨finds, takes⟩ := State.takes_of_mem mem
    exact ⟨takes.none, fun b held => ⟨takes.past held, takes.before held⟩⟩
  · refine ⟨fun next warming last => ?_, fun l e next stood waits row unreported reaches => ?_,
      fun next before on empty last => ?_⟩
    · refine ⟨s.runStage b, State.exec_warmUpEnd_next held next warming last, rfl, ?_⟩
      rw [State.runStage_warmUp_ends next warming last]
      exact State.supplyOn_leaves _
    · have delays : s.arb.delays e = true := by simp [Arbiter.delays, reaches, unreported]
      have only := State.runStage_waitCounting_rowsOnly next s
      have rows := fun l => State.row_runStage_waitCounting next l s
      refine ⟨s.runStage b, State.exec_ringDelayed_next held next stood waits row delays, rfl, ?_, ?_,
        fun m d stood waits row => ?_, fun m other => ?_, only.lines, only.arb⟩
      · rw [rows, if_pos ⟨stood, waits⟩, row, Option.map_some, Entry.counted]
        simp [reaches]
      · rw [State.runStage_waitCounting next]
        have marked := State.countAll_marked
          (s := { s with boundary := some { b with next := .standbyCounting } }) (State.waiting_nodup b.stood s)
          (State.mem_waiting.mpr ⟨stood, waits⟩) row delays
        have position : s.arb.queuePosition l = s.arb.waitQueue.idxOf l + 1 := if_pos (by simpa using waits)
        rwa [← position]
      · exact ⟨d.counted s.arb.waitThreshold, by rw [rows, if_pos ⟨stood, waits⟩, row]; rfl, rfl, rfl⟩
      · rw [rows, if_neg (not_and_or.mpr other)]
    · refine ⟨s.runStage b, State.exec_standbyTimeout_next held next before on empty last.le, rfl, ?_⟩
      rw [State.runStage_standbyCounting next, before]
      exact State.standbyCounting_leaves on empty last.le
end

section
/-! A scan under ringing that finds no trip (R154, R158): the mask and the trip test, the measurement, and the scan as a
whole, which leaves of the line a new play record and no tracking window. -/

namespace Sys2Proof.Machine

theorem Line.tripMet_iff {x : Line} {dc : Nat} : x.tripMet dc = true ↔ x.baseline + x.tripThreshold ≤ dc :=
  decide_eq_true_iff

namespace Play

variable {p : Play}

/-! ### The mask and the trip test -/

theorem judge_masked (met : Bool) (h : p.inrush < 5) : p.judge met = { p with inrush := p.inrush + 1 } := if_pos h

theorem judge_met (h : p.inrush = 5) : p.judge true = { p with trip := p.trip + 1 } := by simp [judge, h]

theorem judge_failed (h : p.inrush = 5) : p.judge false = { p with trip := 0 } := by simp [judge, h]

/-- The judgement moves the two counts and nothing else of the play record (R154). -/
theorem judge_moves_counts (p : Play) (met : Bool) :
    p.judge met = { p with inrush := (p.judge met).inrush, trip := (p.judge met).trip } := by
  unfold judge
  split
  · rfl
  · split <;> rfl

theorem judge_burstStep (p : Play) (met : Bool) : (p.judge met).burstStep = p.burstStep := by rw [judge_moves_counts]

/-- The scan finds no trip when it is masked, and when the trip test fails or is met for at most the second time in a row
(R154, R155). -/
theorem judge_untripped {met : Bool} (inrush : p.inrush ≤ 5) (trip : p.trip ≤ 2)
    (few : p.inrush = 5 → met = true → p.trip ≤ 1) : (p.judge met).trip < 3 := by
  rcases Nat.lt_or_eq_of_le inrush with masked | judged
  · rw [judge_masked met masked]
    exact Nat.lt_succ_of_le trip
  · cases met with
    | true =>
      rw [judge_met judged]
      exact Nat.add_lt_add_right (Nat.lt_succ_of_le (few judged rfl)) 1
    | false =>
      rw [judge_failed judged]
      exact Nat.zero_lt_succ 2

/-! ### The measurement -/

theorem measure_inside (r : Reading) (h : 3 ≤ p.burstStep ∧ p.burstStep ≤ 10) : p.measure r =
    { p with acSum := p.acSum + r.ac, dcSum := p.dcSum + r.dc, measured := p.measured + 1 } := if_pos h

theorem measure_outside (r : Reading) (h : ¬(3 ≤ p.burstStep ∧ p.burstStep ≤ 10)) : p.measure r = p := if_neg h

/-- The measurement moves the sums and the measured scans and nothing else of the play record (R158). -/
theorem measure_moves_sums (p : Play) (r : Reading) : p.measure r =
    { p with acSum := (p.measure r).acSum, dcSum := (p.measure r).dcSum, measured := (p.measure r).measured } := by
  unfold measure
  split <;> rfl

/-- The play record that a scan under ringing leaves if it finds no trip: judged, and for a TEST entry measured
(R154, R158). -/
def afterScan (p : Play) (met test : Bool) (r : Reading) : Play :=
  if test then (p.judge met).measure r else p.judge met

/-- The counts of the record are those of the judgement, and its drive, burst step and armed flag are as they were. -/
theorem afterScan_judged (p : Play) (met test : Bool) (r : Reading) :
    (p.afterScan met test r).inrush = (p.judge met).inrush ∧ (p.afterScan met test r).trip = (p.judge met).trip
      ∧ (p.afterScan met test r).drive = p.drive ∧ (p.afterScan met test r).burstStep = p.burstStep
      ∧ (p.afterScan met test r).armed = p.armed := by
  have judged := p.judge_moves_counts met
  cases test with
  | true =>
    rw [afterScan, if_pos rfl, measure_moves_sums, judged]
    exact ⟨rfl, rfl, rfl, rfl, rfl⟩
  | false =>
    rw [afterScan, if_neg Bool.false_ne_true, judged]
    exact ⟨rfl, rfl, rfl, rfl, rfl⟩

/-- A scan of a TEST entry's burst in burst steps 3 to 10 is measured, masked or not (R158). -/
theorem afterScan_measured (met : Bool) (r : Reading) (inside : 3 ≤ p.burstStep ∧ p.burstStep ≤ 10) :
    (p.afterScan met true r).acSum = p.acSum + r.ac ∧ (p.afterScan met true r).dcSum = p.dcSum + r.dc
      ∧ (p.afterScan met true r).measured = p.measured + 1 := by
  rw [afterScan, if_pos rfl, measure_inside r (by rwa [judge_burstStep]), judge_moves_counts]
  exact ⟨rfl, rfl, rfl⟩

/-- No other scan under ringing is measured (R158). -/
theorem afterScan_unmeasured {test : Bool} (met : Bool) (r : Reading)
    (apart : test = true → ¬(3 ≤ p.burstStep ∧ p.burstStep ≤ 10)) :
    (p.afterScan met test r).acSum = p.acSum ∧ (p.afterScan met test r).dcSum = p.dcSum
      ∧ (p.afterScan met test r).measured = p.measured := by
  have unmeasured : p.afterScan met test r = p.judge met := by
    cases test with
    | true => rw [afterScan, if_pos rfl, measure_outside r (by rw [judge_burstStep]; exact apart rfl)]
    | false => exact if_neg Bool.false_ne_true
  rw [unmeasured, judge_moves_counts]
  exact ⟨rfl, rfl, rfl⟩

end Play

namespace State

variable {s : State} {l : LineNo} {r : Reading} {p : Play}

/-! ### The scan -/

theorem testEntry_iff : s.testEntry l = true ↔ ∃ e, s.row l = some e ∧ e.reqType = .test := by
  unfold testEntry
  cases s.row l <;> simp

/-- The play record that a scan of the line under ringing leaves if it finds no trip (R154, R158). -/
def playAfter (l : LineNo) (r : Reading) (p : Play) (s : State) : Play :=
  p.afterScan ((s.line l).tripMet r.dc) (s.testEntry l) r

theorem ringScan_untripped (untripped : (p.judge ((s.line l).tripMet r.dc)).trip < 3) :
    s.ringScan l r p = s.updLine l fun x => { x with play := some (s.playAfter l r p) } :=
  if_neg (Nat.not_le.mpr untripped)

/-- A line under ringing and no party test is left to the ring engine (R41). -/
theorem loopScan_ringing (r : Reading) (testing : (s.line l).test.running = false) (play : (s.line l).play = some p)
    (rings : p.drive.isSome = true) : s.loopScan l r = s.ringScan l r p := by
  simp [loopScan, testing, play, rings]

/-- Ringing suspends the hook machine (R50). -/
theorem suspended_ringing (play : (s.line l).play = some p) (rings : p.drive.isSome = true) :
    (s.line l).suspended = true := by
  simp [Line.suspended, Line.ringing, play, rings]

/-- A run past its LEAK phase takes nothing from a scan (R164). -/
theorem leakScan_past (reading : Nat) (past : ∀ run, (s.line l).run = some run → run.phase ≠ .leak) :
    s.leakScan l reading = s := by
  unfold leakScan
  split
  · rfl
  · next run running =>
    split
    · rfl
    · rfl
    · next leak => exact absurd leak (past run running)

/-- A scan under ringing that finds no trip: the play record after it, and the window discarded (R56, R154). -/
theorem scanLine_untripped (fitted : (s.line l).fitted = true) (present : r.present = true)
    (testing : (s.line l).test.running = false) (play : (s.line l).play = some p) (rings : p.drive.isSome = true)
    (past : ∀ run, (s.line l).run = some run → run.phase ≠ .leak)
    (untripped : (p.judge ((s.line l).tripMet r.dc)).trip < 3) :
    s.scanLine l r = ((s.countScan l).updLine l fun x => { x with play := some (s.playAfter l r p) }).updLine l
      fun x => { x with track := ⟨0, 0⟩ } := by
  have loop : (s.countScan l).loopScan l r =
      (s.countScan l).updLine l fun x => { x with play := some (s.playAfter l r p) } :=
    (loopScan_ringing (s := s.countScan l) r testing play rings).trans (ringScan_untripped untripped)
  rw [scanLine_fitted fitted present, fittedScan, loop, line_countScan,
    trackScan_of_not _ (suspended_untracked _ (suspended_ringing play rings)), leakScan_past]
  simpa using past

end State

end Sys2Proof.Machine

open Sys2Proof Sys2Proof.Machine

/-- Settles O39: the scan leaves the play record judged and measured, whose counts and sums are read off case by case. -/
theorem ringingScanIsMaskedThenJudged : Obligations.RingingScanIsMaskedThenJudged := by
  intro l r s p d paced fitted present testing play drive past met test inrush trip few
  have met_iff : (s.line l).tripMet r.dc = true ↔ met := Line.tripMet_iff
  have test_iff : s.testEntry l = true ↔ test := State.testEntry_iff
  have untripped := Play.judge_untripped inrush trip fun judged meets => few judged (met_iff.mp meets)
  have scan := State.scanLine_untripped fitted present testing play (by rw [drive]; rfl) past untripped
  obtain ⟨inrush_eq, trip_eq, drive_eq, step_eq, armed_eq⟩ :=
    p.afterScan_judged ((s.line l).tripMet r.dc) (s.testEntry l) r
  refine ⟨s.scanLine l r, s.playAfter l r p, State.exec_scan paced, State.scanLine_onlyLine fitted present,
    by rw [scan]; rfl, by rw [scan]; rfl, ?_, drive_eq, step_eq, armed_eq, fun masked => ?_,
    fun judged => ⟨?_, fun meets => ?_, fun fails => ?_⟩, fun isTest lo hi => ?_, fun apart => ?_⟩
  · rw [scan, State.line_updLine, if_pos rfl, State.line_updLine, if_pos rfl, State.line_countScan]
  · rw [State.playAfter, inrush_eq, trip_eq, Play.judge_masked _ masked]
    exact ⟨rfl, rfl⟩
  · rw [State.playAfter, inrush_eq]
    cases (s.line l).tripMet r.dc with
    | true => rw [Play.judge_met judged, judged]
    | false => rw [Play.judge_failed judged, judged]
  · rw [State.playAfter, trip_eq, met_iff.mpr meets, Play.judge_met judged]
  · rw [State.playAfter, trip_eq, Bool.eq_false_iff.mpr (met_iff.not.mpr fails), Play.judge_failed judged]
  · rw [State.playAfter, test_iff.mpr isTest]
    exact Play.afterScan_measured _ r ⟨lo, hi⟩
  · refine Play.afterScan_unmeasured _ r fun isTest inside => ?_
    rcases apart with other | early | late
    · exact other (test_iff.mp isTest)
    · exact Nat.not_lt.mpr inside.1 early
    · exact Nat.not_lt.mpr inside.2 late
end

section
/-! CALIBRATE and CALIBRATE_CANCEL (R163, R172, R173): the payload of CALIBRATE read back, the run that it opens, and the
run that its cancelling ends. -/

namespace Sys2Proof.Machine

/-! ### The payload -/

/-- The payload of CALIBRATE passes its fields and its relations (R163, R198; log 17). -/
theorem calibrate_passes {p : List Byte} (line : byteAt p 0 ≤ 15) (mask : 1 ≤ byteAt p 2 ∧ byteAt p 2 ≤ 15)
    (flag : byteAt p 3 ≤ 1) (bounds : byteAt p 3 = 1 → 20 ≤ wordAt p 4 ∧ wordAt p 4 ≤ wordAt p 6 ∧ wordAt p 6 ≤ 600)
    (method : (byteAt p 1 = 0 ∧ wordAt p 8 = 0) ∨ (byteAt p 1 = 1 ∧ 20 ≤ wordAt p 8 ∧ wordAt p 8 ≤ 600)) :
    ∀ k ∈ fieldChecks .calibrate p, k.1 = true := by
  have methodRange : byteAt p 1 ≤ 1 := by omega
  have holdRange : (wordAt p 8 == 0 || within 20 600 (wordAt p 8)) = true := by
    rcases method with ⟨_, none'⟩ | ⟨_, range⟩
    · simp [none']
    · simp [within, range]
  have relations : (byteAt p 1 == 0 || wordAt p 8 != 0) = true ∧ (byteAt p 1 == 1 || wordAt p 8 == 0) = true := by
    rcases method with ⟨midpoint, none'⟩ | ⟨hold, least, _⟩
    · simp [midpoint, none']
    · have some' : wordAt p 8 ≠ 0 := by omega
      simp [hold, some']
  rw [fieldChecks, calibrateChecks]
  by_cases bounded : byteAt p 3 = 1
  · obtain ⟨least, order, most⟩ := bounds bounded
    rw [if_pos bounded, if_pos bounded]
    simp only [List.cons_append, List.nil_append, List.forall_mem_cons, lineField, byteIn_passes_iff, wordIn_passes_iff]
    exact ⟨⟨Nat.zero_le _, line⟩, ⟨Nat.zero_le _, methodRange⟩, mask, ⟨Nat.zero_le _, flag⟩, by omega, by omega, holdRange,
      decide_eq_true order, relations.1, relations.2, List.forall_mem_nil _⟩
  · rw [if_neg bounded, if_neg bounded]
    simp only [List.cons_append, List.nil_append, List.forall_mem_cons, lineField, byteIn_passes_iff]
    exact ⟨⟨Nat.zero_le _, line⟩, ⟨Nat.zero_le _, methodRange⟩, mask, ⟨Nat.zero_le _, flag⟩, holdRange, relations.1,
      relations.2, List.forall_mem_nil _⟩

/-- A run as CALIBRATE opens it: in LEAK with nothing added or measured (R163; log 30). -/
def Run.opened (m : CalMethod) (mask : BitVec 4) (bounds : Option (Nat × Nat)) (hold : Option Nat) : Run :=
  ⟨m, mask, bounds, hold, .leak, 0, 0, none, 0, 0, 0, Tab.fill none⟩

/-- A payload that reads back as the operands of a CALIBRATE; the places of bounds that are not given are disregarded
(R198). -/
structure CalibrateReads (p : List Byte) (l : LineNo) (m : CalMethod) (mask : Nat) (bounded : Bool) (lo hi hold : Nat) :
    Prop where
  line : byteAt p 0 = l.val
  method : byteAt p 1 = m.code.toNat
  mask : byteAt p 2 = mask
  flag : byteAt p 3 = (flagByte bounded).toNat
  bounds : bounded = true → wordAt p 4 = lo ∧ wordAt p 6 = hi
  hold : wordAt p 8 = hold

section

variable {p : List Byte} {l : LineNo} {m : CalMethod} {mask : Nat} {bounded : Bool} {lo hi hold : Nat}
  (masked : 1 ≤ mask ∧ mask ≤ 15) (bounds : bounded = true → 20 ≤ lo ∧ lo ≤ hi ∧ hi ≤ 600)
  (midpoint : m = .midpoint → hold = 0) (held : m = .hold → 20 ≤ hold ∧ hold ≤ 600)

include midpoint held

/-- MIDPOINT has no hold value, and that of HOLD is in its range (R163). -/
theorem CalMethod.hold_cases : (m = .midpoint ∧ hold = 0) ∨ (m = .hold ∧ 20 ≤ hold ∧ hold ≤ 600) := by
  cases m with
  | midpoint => exact .inl ⟨rfl, midpoint rfl⟩
  | hold => exact .inr ⟨rfl, held rfl⟩

include masked bounds

/-- The payload of a valid CALIBRATE reads back (R192, R198). -/
theorem calibratePayload_reads
    (form : p = [lineByte l, m.code, toByte mask, flagByte bounded] ++ toBytes2 lo ++ toBytes2 hi ++ toBytes2 hold) :
    CalibrateReads p l m mask bounded lo hi hold := by
  have small : hold < 65536 := by rcases CalMethod.hold_cases midpoint held with ⟨_, h⟩ | ⟨_, h⟩ <;> omega
  subst form
  refine ⟨lineByte_toNat l, rfl, toByte_toNat (by omega), rfl, fun given => ?_, twoBytes_toNat small⟩
  have range := bounds given
  exact ⟨twoBytes_toNat (by omega), twoBytes_toNat (by omega)⟩

/-- A valid CALIBRATE passes its checks (R163). -/
theorem CalibrateReads.passes (reads : CalibrateReads p l m mask bounded lo hi hold) :
    ∀ k ∈ fieldChecks .calibrate p, k.1 = true := by
  refine calibrate_passes (by rw [reads.line]; omega) (by rwa [reads.mask])
    (by rw [reads.flag]; cases bounded <;> decide) (fun set => ?_) ?_
  · have given : bounded = true := by
      rw [reads.flag] at set
      cases bounded with
      | true => rfl
      | false => contradiction
    obtain ⟨low, high⟩ := reads.bounds given
    rw [low, high]
    exact bounds given
  · rw [reads.method, reads.hold]
    rcases CalMethod.hold_cases midpoint held with ⟨rfl, none'⟩ | ⟨rfl, range⟩
    · exact .inl ⟨rfl, none'⟩
    · exact .inr ⟨rfl, range⟩

omit masked bounds midpoint held in
theorem CalibrateReads.lineAt_eq (reads : CalibrateReads p l m mask bounded lo hi hold) : lineAt p 0 = l := by
  simp [lineAt, reads.line]

omit masked bounds in
/-- The run that a valid CALIBRATE opens (R163). -/
theorem CalibrateReads.runAt_eq (reads : CalibrateReads p l m mask bounded lo hi hold) : runAt p =
    .opened m (BitVec.ofNat 4 mask) (if bounded then some (lo, hi) else none) (if m = .hold then some hold else none) := by
  have method : (if byteAt p 1 = 0 then CalMethod.midpoint else .hold) = m := by
    rw [reads.method]
    cases m <;> rfl
  have given : (if byteAt p 3 = 1 then some (wordAt p 4, wordAt p 6) else none) =
      if bounded then some (lo, hi) else none := by
    rw [reads.flag]
    cases bounded with
    | true =>
      obtain ⟨low, high⟩ := reads.bounds rfl
      rw [low, high]
      rfl
    | false => rfl
  have value : (if hold = 0 then none else some hold) = if m = .hold then some hold else none := by
    rcases CalMethod.hold_cases midpoint held with ⟨rfl, none'⟩ | ⟨rfl, range⟩
    · exact if_pos none'
    · exact if_neg (by omega)
  rw [runAt, method, reads.mask, given, reads.hold, value]
  rfl

end

namespace State

variable {s : State} {l : LineNo} {p : List Byte} {r : Run}

/-! ### CALIBRATE -/

section

variable (named : lineAt p 0 = l)

include named

theorem carryCalibrate_disabled (h : (s.line l).call = .disabled) : s.carryCalibrate p = (s, [0x13]) := by
  simp only [carryCalibrate, named, if_pos h]
  rfl

theorem carryCalibrate_busy (enabled : (s.line l).call ≠ .disabled) (busy : (s.line l).call ≠ .idle) :
    s.carryCalibrate p = (s, [0x01, (s.line l).call.code]) := by
  simp only [carryCalibrate, named, if_neg enabled, if_neg busy]
  rfl

theorem carryCalibrate_taken (idle : (s.line l).call = .idle) (opens : runAt p = r) :
    s.carryCalibrate p = (s.openRun l r, [0x00, 15]) := by
  have enabled : (s.line l).call ≠ .disabled := by rw [idle]; nofun
  simp only [carryCalibrate, named, opens, if_neg enabled, if_pos idle, openRun, okState_enter]
  rfl

end

/-- The line of an accepted CALIBRATE, as it is about to leave IDLE (R163). -/
def runOpened (l : LineNo) (r : Run) (s : State) : State := s.updLine l fun x =>
  { x with run := some r, calStatus := .running, calMethod := some r.method, calCause := none }

theorem openRun_eq : s.openRun l r = (s.runOpened l r).enter l .calibrating := rfl

theorem line_runOpened : (s.runOpened l r).line l =
    { s.line l with run := some r, calStatus := .running, calMethod := some r.method, calCause := none } := by
  rw [runOpened, line_updLine, if_pos rfl]

theorem runOpened_point : CallPoint l s (s.runOpened l r) := .updLine _ rfl rfl rfl

/-- The line of an accepted CALIBRATE (R56, R163). -/
theorem line_openRun (idle : (s.line l).call = .idle) : (s.openRun l r).line l = { s.line l with
    call := .calibrating, timer := none, dialBegun := false, run := some r
    calStatus := .running, calMethod := some r.method, calCause := none, track := ⟨0, 0⟩ } := by
  have track : ((s.runOpened l r).line l).trackAfter .calibrating = ⟨0, 0⟩ :=
    Line.trackAfter_leaving (runOpened_point.call.trans idle) (by decide)
  rw [openRun_eq, line_enter, track, line_runOpened]
  rfl

theorem openRun_onlyLine : s.OnlyLine l (s.openRun l r) :=
  .of_kept ((Kept.updLine l _ rfl).trans (Kept.enter l _)) ((Local.updLine l _).trans (Local.enter l _))

theorem openRun_arb : (s.openRun l r).arb = s.arb := enter_arb ..

theorem openRun_tells (idle : (s.line l).call = .idle) : s.tells (s.openRun l r) l none :=
  runOpened_point.enter_tells (by rw [idle]; nofun)

/-! ### CALIBRATE_CANCEL -/

theorem carryCalibrateCancel_refused (h : (s.line l).call ≠ .calibrating) :
    s.carryCalibrateCancel [lineByte l] = (s, [0x02, (s.line l).call.code]) := by
  simp only [carryCalibrateCancel, lineAt_line, if_neg h]
  rfl

theorem carryCalibrateCancel_taken (h : (s.line l).call = .calibrating) (run : (s.line l).run = some r) :
    s.carryCalibrateCancel [lineByte l] = (s.failToIdle l .canceled, [0x00, 1]) := by
  simp only [carryCalibrateCancel, lineAt_line, if_pos h, failToIdle_of_run .canceled run, okState_enter]
  rfl

end State

end Sys2Proof.Machine

open Sys2Proof Sys2Proof.Machine

/-- Settles O30: the checks of CALIBRATE and its answer by the call state, the run that its payload opens, and the run that
CALIBRATE_CANCEL fails. -/
theorem calibrationOpensAndCancels : Obligations.CalibrationOpensAndCancels := by
  intro tag l s ready x
  have cancel : ∀ {t reply}, s.carryCalibrateCancel _ = (t, reply) → _ :=
    exec_carried .calibrateCancel tag _ ready rfl (lineField_only l)
  refine ⟨fun mask lo hi hold bounded m least most bounds midpoint held => ?_,
    fun away => cancel (State.carryCalibrateCancel_refused away),
    fun r (calibrating : (s.line l).call = .calibrating) run =>
      ⟨_, cancel (State.carryCalibrateCancel_taken calibrating run),
        .of_kept (Kept.failToIdle l _) (Local.failToIdle l _), by rw [State.line_failToIdle _ run],
        State.failToIdle_tells _ run (by rw [calibrating]; nofun), State.failToIdle_runFailed _ run⟩⟩
  intro run
  have reads := calibratePayload_reads (l := l) ⟨least, most⟩ bounds midpoint held rfl
  have calibrate : ∀ {t reply}, s.carryCalibrate _ = (t, reply) → run = .next (t.replied ⟨0xBA, tag, reply⟩) :=
    exec_carried .calibrate tag _ ready rfl (reads.passes ⟨least, most⟩ bounds midpoint held)
  refine ⟨fun disabled => calibrate (State.carryCalibrate_disabled reads.lineAt_eq disabled),
    fun enabled busy => calibrate (State.carryCalibrate_busy reads.lineAt_eq enabled busy),
    fun (idle : (s.line l).call = .idle) =>
      ⟨_, _, calibrate (State.carryCalibrate_taken reads.lineAt_eq idle (reads.runAt_eq midpoint held)),
        State.openRun_onlyLine, State.openRun_arb, State.openRun_tells idle, State.line_openRun idle, rfl, rfl, rfl, rfl,
        rfl, rfl, rfl, fun c => Tab.get_fill none c⟩⟩
end

section
/-! A scan of a LEAK phase (R164, R165): where the hook machine finds no off-hook event the reading is added, and the
hundredth ends the phase. -/

namespace Sys2Proof.Machine

/-- A run with one more reading of its LEAK phase (R164). -/
def Run.leaked (r : Run) (reading : Nat) : Run :=
  { r with leakScans := r.leakScans + 1, leakSum := r.leakSum + reading }

namespace State

variable {s v : State} {l : LineNo} {r : Reading} {run q : Run} {f : Channel} {reading : Nat}

/-! ### The LEAK work -/

section

variable (running : (s.line l).run = some run) (leak : run.phase = .leak)

include running leak

theorem leakScan_adds (early : run.leakScans < 99) :
    s.leakScan l reading = s.updLine l fun x => { x with run := some (run.leaked reading) } := by
  have more : run.leakScans + 1 < 100 := by omega
  simp only [leakScan, running, leak, if_pos more, Run.leaked]

theorem leakScan_high (last : run.leakScans = 99)
    (high : (s.line l).leakLimit ≤ (run.leaked reading).leakSum / 100) : s.leakScan l reading =
      (s.updLine l fun x => { x with run := some (run.leaked reading) }).failToIdle l .leakHigh := by
  have full : ¬run.leakScans + 1 < 100 := by omega
  rw [Run.leaked] at high
  simp only [leakScan, running, leak, if_neg full, if_pos high, Run.leaked]

theorem leakScan_passes (last : run.leakScans = 99)
    (low : (run.leaked reading).leakSum / 100 < (s.line l).leakLimit)
    (first : channels.find? (inMask run.mask) = some f) : s.leakScan l reading =
      ((s.updLine l fun x => { x with run := some (run.leaked reading) }).updLine l fun x =>
        { x with run := some { run.leaked reading with leakAvg := some ((run.leaked reading).leakSum / 100) } }).beginWait
          l f := by
  have full : ¬run.leakScans + 1 < 100 := by omega
  rw [Run.leaked] at low
  simp only [leakScan, running, leak, if_neg full, if_neg (Nat.not_le.mpr low), first, Run.leaked]

end

/-! ### The point at which the LEAK phase takes its reading -/

/-- The scan has led from `s` to `v`: of the line the hook machine, the tracking window and the run have changed, and
nothing has been reported. -/
structure LeakPoint (l : LineNo) (s v : State) : Prop where
  line : v.line l = { s.line l with hook := (v.line l).hook, track := (v.line l).track, run := (v.line l).run }
  arb : v.arb = s.arb
  link : v.link = s.link
  stamp : v.stamp = s.stamp

namespace LeakPoint

theorem withRun (h : LeakPoint l s v) (q : Run) : LeakPoint l s (v.updLine l fun x => { x with run := some q }) := by
  refine ⟨?_, h.arb, h.link, h.stamp⟩
  rw [line_updLine, if_pos rfl, h.line]

theorem call (h : LeakPoint l s v) : (v.line l).call = (s.line l).call := by rw [h.line]

theorem leakLimit (h : LeakPoint l s v) : (v.line l).leakLimit = (s.line l).leakLimit := by rw [h.line]

theorem loads (h : LeakPoint l s v) : (v.line l).loads = (s.line l).loads := by rw [h.line]

theorem requestLoad (h : LeakPoint l s v) (f : Channel) : v.requestLoad l f = s.requestLoad l f := by
  simp only [State.requestLoad, h.loads, h.arb]

/-- A run that fails there: IDLE, told, no entry, and its report (R172). -/
theorem fails (h : LeakPoint l s v) (calibrating : (s.line l).call = .calibrating) (c : CalCause)
    (same : ∀ x stamp, calibrationData l x q stamp = calibrationData l x run stamp) :
    let t := (v.updLine l fun x => { x with run := some q }).failToIdle l c
    (t.line l).call = .idle ∧ s.tells t l none ∧ s.runFailed t l run c := by
  let u := v.updLine l fun x => { x with run := some q }
  have point : LeakPoint l s u := h.withRun q
  have running : (u.line l).run = some q := by rw [line_updLine, if_pos rfl]
  have away : (u.line l).call ≠ .idle := by rw [point.call, calibrating]; nofun
  have mask : u.link.mask = s.link.mask := by rw [point.link]
  exact ⟨by rw [line_failToIdle c running],
    tells_of_before (failToIdle_tells c running away) point.stamp mask point.call,
    runFailed_of_before (failToIdle_runFailed c running) point.stamp mask (by rw [point.line]) (by rw [point.line])
      (by rw [point.line]) (same _ _)⟩

end LeakPoint

/-- The state of a scan that hands nothing on, as the LEAK phase takes its reading: the hook machine moved, the tracking
window discarded (R56, R164). -/
def leakReached (l : LineNo) (r : Reading) (s : State) : State :=
  (s.hookMoved l ((s.line l).hookMove r).1).updLine l fun x => { x with track := ⟨0, 0⟩ }

theorem line_leakReached : (s.leakReached l r).line l =
    { s.line l with hook := ((s.line l).hookMove r).1, track := ⟨0, 0⟩ } := by
  rw [leakReached, line_updLine, if_pos rfl, line_hookMoved]

theorem leakReached_point : LeakPoint l s (s.leakReached l r) :=
  ⟨by rw [line_leakReached], rfl, rfl, hookMoved_stamp l ((s.line l).hookMove r).1 s⟩

/-! ### The scan -/

/-- A machine in ONHOOK or QUALIFY that finds no off-hook event hands nothing on (R44). -/
theorem hookMove_unqualified (h : s.watched l r)
    (rest : (s.line l).hook.state = .onhook ∨ (s.line l).hook.state = .qualify) (short : ¬s.qualifies l r) :
    ((s.line l).hookMove r).2 = [] := by
  by_cases make : s.makes l r
  · rw [Line.hookMove, makeScan_iff.mpr make]
    rcases rest with st | st
    · rw [Hook.scan_onhook_make _ st]
    · have few : (s.line l).hook.qualify + 1 < (s.line l).required :=
        Nat.lt_of_not_le fun enough => short ⟨h, make, st, enough⟩
      rw [Hook.scan_qualify_counts _ st few]
  · obtain ⟨_, move⟩ := hookMove_rests make rest
    rw [move]

section

variable (h : s.watched l r) (silent : ((s.line l).hookMove r).2 = [])

include h silent

/-- A scan that hands nothing on, of a line out of IDLE, is left to the LEAK phase (R56, R164). -/
theorem scanLine_leakReached (away : (s.line l).call ≠ .idle) :
    s.scanLine l r = (s.leakReached l r).leakScan l r.loop := by
  have moved := loopScan_watched h
  rw [silent, handItems_nil] at moved
  obtain ⟨_, fitted, present, _⟩ := h
  rw [scanLine_fitted fitted present, fittedScan, moved, trackScan_of_not r.loop (by simp [Line.tracks, away])]
  rfl

/-- The hundredth scan of a LEAK phase is found by its row (R164; log 4). -/
theorem exec_leakComplete (running : (s.line l).run = some run) (leak : run.phase = .leak) (last : run.leakScans = 99) :
    exec (.leakComplete l r) s = .next (s.scanLine l r).settleLink := by
  have awake := watched_suspended h
  obtain ⟨paced, fitted, present, _, _, testing, ringing⟩ := h
  have loop : (s.loopScan l r).line l = { s.line l with hook := ((s.line l).hookMove r).1 } := by
    rw [loopScan_awake r testing ringing awake, silent, handItems_nil, line_updLine, if_pos rfl]
  refine scanning_found (finds := fun u => u.completesLeak l r) paced ?_
  simp [completesLeak, Line.judgedScan, loop, fitted, present, running, leak, last]

end

end State

end Sys2Proof.Machine

open Sys2Proof Sys2Proof.Machine

/-- Settles O40: the scan is left to the LEAK phase, which adds the reading, or at the hundredth fails the run or begins
the wait for the first channel. -/
theorem leakPhaseEndsInWait : Obligations.LeakPhaseEndsInWait := by
  constructor
  · intro l r s run watched calibrating running leak early rest short
    have scan : s.scanLine l r = (s.leakReached l r).updLine l fun x => { x with run := some (run.leaked r.loop) } := by
      rw [State.scanLine_leakReached watched (State.hookMove_unqualified watched rest short)
        (by rw [calibrating]; nofun)]
      exact State.leakScan_adds (by rw [State.line_leakReached, running]) leak early
    obtain ⟨paced, fitted, present, _⟩ := watched
    refine ⟨s.scanLine l r, State.exec_scan paced, State.scanLine_onlyLine fitted present, by rw [scan]; rfl,
      by rw [scan]; rfl, ?_⟩
    rw [scan, State.line_updLine, if_pos rfl, State.line_leakReached]
    rfl
  · intro l r i s run f watched calibrating running leak last rest short masked lowest row x a load small full
    have silent := State.hookMove_unqualified watched rest short
    have scan := State.scanLine_leakReached watched silent (by rw [calibrating]; nofun)
    have exec' : exec i s = .next (s.scanLine l r).settleLink := by
      rcases row with rfl | rfl
      · exact State.exec_leakComplete watched silent running leak last
      · exact State.exec_scan watched.1
    obtain ⟨_, fitted, present, _⟩ := watched
    have read : run.leaked r.loop = full := by simp [Run.leaked, last, full]
    have reached : State.LeakPoint l s (s.leakReached l r) := State.leakReached_point
    have running' : ((s.leakReached l r).line l).run = some run := by rw [State.line_leakReached, running]
    have first : channels.find? (inMask run.mask) = some f := find_channel masked fun c found =>
      le_of_not_gt fun below => Bool.false_ne_true ((lowest c below).symm.trans found)
    let v := ((s.leakReached l r).updLine l fun y => { y with run := some full }).updLine l fun y =>
      { y with run := some { full with leakAvg := some a } }
    have point : State.LeakPoint l s v := (reached.withRun full).withRun _
    have waiting : (v.line l).run = some { full with leakAvg := some a } := by rw [State.line_updLine, if_pos rfl]
    have begins : a < x.leakLimit → s.scanLine l r = v.beginWait l f := fun low => by
      rw [scan, State.leakScan_passes running' leak last (by rwa [reached.leakLimit]) first, read]
    have sameLoad : v.requestLoad l f = load := point.requestLoad f
    have sameSmall : (∀ w, (v.arb.caps.get f).get w < v.requestLoad l f) ↔ small := by rw [sameLoad, point.arb]
    refine ⟨s.scanLine l r, exec', State.scanLine_onlyLine fitted present, fun high => ?_, fun low all => ?_,
      fun low fits => ?_⟩
    · rw [scan, State.leakScan_high running' leak last (by rwa [reached.leakLimit]), read]
      exact reached.fails calibrating .leakHigh fun _ _ => rfl
    · rw [begins low, State.beginWait_small waiting (sameSmall.mpr all)]
      exact point.fails calibrating .supply fun _ _ => rfl
    · rw [begins low, ← sameLoad]
      exact State.beginWait_requested (point.call.trans calibrating) waiting (sameSmall.not.mpr fits)
end

section
/-! The link's law (R175): the work of the blocks leaves the flow of frames alone, and what ends an event keeps the
queues in their limits. -/

namespace Sys2Proof.Machine

namespace Flows

variable {s t : State}

/-- An update of the link that leaves its flow, its mask and its pending sets alone. -/
theorem updLink (f : Link → Link) (flow : (f s.link).flow = s.link.flow) (mask : (f s.link).mask = s.link.mask)
    (sets : (f s.link).pendingSets = s.link.pendingSets) : Flows s (s.updLink f) :=
  ⟨flow, fun law e => by rw [State.updLink_link, mask, sets]; exact law e, rfl⟩

theorem updLine (l : LineNo) (f : Line → Line) : Flows s (s.updLine l f) := same rfl rfl

theorem updArb (f : Arbiter → Arbiter) : Flows s (s.updArb f) := same rfl rfl

theorem foldl {α : Type} (f : State → α → State) (h : ∀ u a, Flows u (f u a)) (as : List α) (s : State) :
    Flows s (as.foldl f s) := by
  induction as generalizing s with
  | nil => exact refl s
  | cons a as ih => exact (h s a).trans (ih (f s a))

/-! ### Step events and scans -/

theorem activation (l : LineNo) : Flows s (s.activation l) := by
  unfold State.activation
  split
  · exact (updLine l _).trans (of_kept (Kept.markLine _ _ _))
  · exact refl s

theorem doWork (w : Work) : Flows s (s.doWork w) := by
  cases w with
  | activation l => exact activation l
  | alarmCount l => exact of_kept (Kept.alarmCountStep l)
  | calWait l => exact of_kept (Kept.calWaitCount l)
  | arbiter => exact of_kept ((Kept.boundary _).trans Kept.runBoundary)
  | callTimer l => exact of_kept (Kept.callTimerStep l)
  | pendingAlarm l => exact of_kept (Kept.pendingAlarmStep l)
  | ring l => exact of_kept (Kept.ringStep l)

theorem hold (w : Work) : Flows s (s.hold w) := by
  cases w <;> exact same rfl rfl

theorem takeDue (w : Work) : Flows s (s.takeDue w) :=
  trans (t := { s with due := s.due.erase w }) (same rfl rfl) (doWork w)

theorem settleDue : Flows s s.settleDue :=
  trans (t := { s with due := [] }) (same rfl rfl)
    ((foldl _ (fun _ w => doWork w) s.due _).trans (of_kept Kept.runBoundary))

theorem advanceTimebase : Flows s s.advanceTimebase := by
  have moved : Flows s (s.updTimebase fun t => t.advance.1) := same rfl rfl
  unfold State.advanceTimebase
  dsimp only
  split
  · exact moved
  · exact moved.trans (of_kept Kept.markSync)

theorem takeWorks (first held : List Work) (b : Bool) : Flows s (s.takeWorks first held b) :=
  (foldl _ (fun _ w => hold w) _ _).trans (foldl _ (fun _ w => doWork w) _ _)

theorem stepTime (first held : List Work) : Flows s (s.stepTime first held) :=
  settleDue.trans (advanceTimebase.trans (takeWorks _ _ _))

theorem fittedLost (l : LineNo) : Flows s (s.fittedLost l) := by
  unfold State.fittedLost
  exact (updLine l _).trans (of_kept ((Kept.markLineFault _ _).trans (Kept.disableLine l)))

theorem unfittedScan (l : LineNo) (present : Bool) : Flows s (s.unfittedScan l present) := by
  unfold State.unfittedScan
  dsimp only
  split
  · exact (updLine l _).trans (of_kept (Kept.markLineFault _ _))
  · exact updLine l _

theorem scanLine (l : LineNo) (r : Reading) : Flows s (s.scanLine l r) := by
  refine trans (t := s.countScan l) (same rfl rfl) ?_
  unfold State.scanLine
  dsimp only
  split
  · split
    · exact of_kept (Kept.fittedScan _ _)
    · exact fittedLost _
  · exact unfittedScan _ _

theorem assertFault (c : Channel) : Flows s (s.assertFault c) := by
  unfold State.assertFault
  exact (updArb _).trans (of_kept ((Kept.suspendMany _ _).trans (Kept.markSupply _ _)))

theorem releaseFault (c : Channel) : Flows s (s.releaseFault c) := (updArb _).trans (of_kept (Kept.markSupply _ _))

/-! ### The link's own work -/

/-- What the choice of a kind does besides touches the line's list or the link-fault set (R187). -/
theorem chosen (e : Fin 17) (r : ReportKind) : Flows s (s.chosen e r) := by
  unfold State.chosen
  split
  · split
    · exact updLine _ _
    · exact refl s
  · exact updLink _ rfl rfl rfl
  all_goals exact refl s

theorem linkFault (c : LinkFault) : Flows s (s.linkFault c) :=
  (updLink _ rfl rfl rfl).trans (of_kept (Kept.markDevice _ _))

end Flows

/-! ### The law through every event -/

/-- A kind taken out of a set leaves it within the mask (R185). -/
theorem setsLawful_without {k : Link} (law : k.setsLawful) (e : Fin 17) (m : BitVec 14) (f : Fin 17) :
    (k.pendingSets.set e (k.pendingSets.get e &&& m)).get f &&& ~~~k.mask = 0 := by
  rw [Tab.get_set]
  split
  · rw [BitVec.and_assoc, BitVec.and_comm m, ← BitVec.and_assoc, law e]
    exact BitVec.zero_and
  · exact law f

namespace State.linkLaw

variable {s t : State}

theorem of_flows (h : s.linkLaw) (k : Flows s t) : t.linkLaw := by
  obtain ⟨intake, replies, sets⟩ := h
  exact ⟨by rwa [k.intake], by rwa [k.replies], k.sets sets⟩

/-- The receive assembler may be moved freely: the law does not read it. -/
theorem withReceiver (h : s.linkLaw) (r : Receiver) : (s.updLink fun k => { k with receiver := r }).linkLaw := h

/-- A reply joins a queue with room (R179). -/
theorem pushReply (h : s.linkLaw) (room : s.link.replies.length < 4) (r : Frame) : (s.pushReply r).linkLaw := by
  obtain ⟨intake, -, sets⟩ := h
  exact ⟨intake, by simpa [State.pushReply] using room, sets⟩

/-- The dispatcher takes a frame only for a reply that has room (R179). -/
theorem dispatch (h : s.linkLaw) (n : Nat) : (s.dispatch n).linkLaw := by
  induction n generalizing s with
  | zero => exact h
  | succ n ih =>
    unfold State.dispatch
    split
    · exact h
    · next f fs waiting =>
      split
      · next room =>
        obtain ⟨intake, replies, sets⟩ := h
        rw [waiting] at intake
        have taken : (s.updLink fun k => { k with intake := fs }).linkLaw := ⟨Nat.le_of_succ_le intake, replies, sets⟩
        have answered := Flows.answerFrame (s := s.updLink fun k => { k with intake := fs }) f
        exact ih ((taken.of_flows answered).pushReply (by rw [answered.replies]; exact room) _)
      · exact h

theorem sendReport (h : s.linkLaw) (e : Fin 17) (r : ReportKind) : (s.sendReport e r).linkLaw := by
  obtain ⟨intake, replies, sets⟩ := h
  refine of_flows ?_ (Flows.chosen e r)
  exact ⟨intake, replies, setsLawful_without sets e _⟩

theorem transmit (h : s.linkLaw) : s.transmit.linkLaw := by
  unfold State.transmit State.choose
  split
  · exact h
  · split
    · next r rs waiting =>
      obtain ⟨intake, replies, sets⟩ := h
      rw [waiting] at replies
      exact ⟨intake, Nat.le_of_succ_le replies, sets⟩
    · split
      · exact h
      · exact h.sendReport _ _

theorem settleLink (h : s.linkLaw) : s.settleLink.linkLaw := ((h.dispatch _).transmit).dispatch _

/-- A frame joins a queue with room, or is dropped with a fault (R178). -/
theorem offer (h : s.linkLaw) (f : Frame) : (s.offer f).linkLaw := by
  unfold State.offer
  split
  · next room =>
    obtain ⟨-, replies, sets⟩ := h
    exact ⟨by simpa using Nat.succ_le_of_lt (show s.link.intake.length < 4 from room), replies, sets⟩
  · exact h.of_flows (Flows.linkFault _)

theorem receive (h : s.linkLaw) (b : Byte) : (s.receive b).linkLaw := by
  have taken := h.withReceiver (s.link.receiver.take b).1
  unfold State.receive State.takeReceived
  dsimp only
  split
  · exact taken
  · exact taken.offer _
  · exact taken.of_flows (Flows.linkFault _)

theorem gapExpiry (h : s.linkLaw) : s.gapExpiry.linkLaw := by
  unfold State.gapExpiry
  split
  · exact (h.withReceiver .hunt).of_flows (Flows.linkFault _)
  · exact h

theorem takeOwed (h : s.linkLaw) (l : LineNo) : (s.takeOwed l).linkLaw := by
  unfold State.takeOwed
  split
  · exact (h.of_flows (Flows.stepTime _ _)).settleLink
  · exact h

/-! ### Events -/

theorem finish (h : s.linkLaw) : ∀ u, Machine.finish s = .next u → u.linkLaw := by
  rintro u ⟨⟩
  exact h.settleLink

theorem occurring (h : s.linkLaw) (b : Bool) (f : State → State) (keeps : (f s).linkLaw) :
    ∀ u, Machine.occurring b f s = .next u → u.linkLaw := by
  unfold Machine.occurring
  split
  · exact keeps.finish
  · rintro u ⟨⟩
    exact h

/-- An event of another block, which leaves the flow of frames alone. -/
theorem occurring_flows (h : s.linkLaw) (b : Bool) (f : State → State) (k : Flows s (f s)) :
    ∀ u, Machine.occurring b f s = .next u → u.linkLaw := h.occurring b f (h.of_flows k)

theorem execScan (h : s.linkLaw) (l : LineNo) (r : Reading) : ∀ u, Machine.execScan l r s = .next u → u.linkLaw :=
  ((h.takeOwed l).of_flows (Flows.scanLine l r)).finish

theorem scanning (h : s.linkLaw) (finds : State → Bool) (l : LineNo) (r : Reading) :
    ∀ u, Machine.scanning finds l r s = .next u → u.linkLaw := by
  unfold Machine.scanning
  split
  · exact h.execScan l r
  · rintro u ⟨⟩
    exact h

end State.linkLaw

/-- Every event keeps the link's law. -/
theorem exec_linkLaw (i : Instr) (s t : State) (law : s.linkLaw) (h : exec i s = .next t) : t.linkLaw := by
  cases i <;> simp only [exec, execOffHook, execOnHook, execDigitComplete, execPartyTestResult,
    execTrackingWindowClose, execRingTrip, execLeakComplete, execFsyncPulse] at h
  case hardReset straps =>
    cases h
    exact reset_linkLaw
  case badKind kind tag p => exact law.occurring _ _ (law.offer _) t h
  case byteReceived b good => exact law.occurring _ _ (law.receive b) t h
  case gap => exact law.occurring _ _ law.gapExpiry t h
  case frameSent => exact law.occurring _ State.frameDone law t h
  case scan l r => exact law.execScan l r t h
  case offHook l r => exact law.scanning _ l r t h
  case onHook l r => exact law.scanning _ l r t h
  case digitComplete l r => exact law.scanning _ l r t h
  case partyTestResult l r => exact law.scanning _ l r t h
  case trackingWindowClose l r => exact law.scanning _ l r t h
  case ringTrip l r => exact law.scanning _ l r t h
  case leakComplete l r => exact law.scanning _ l r t h
  case stepEvent first held => exact law.occurring_flows _ _ (Flows.stepTime first held) t h
  case followerWindowUnmet first held => exact law.occurring_flows _ _ (Flows.stepTime first held) t h
  case fsyncPulse => exact State.linkLaw.finish (s := s.updTimebase Timebase.pulse) law t h
  case callTimerExpiry l => exact law.occurring_flows _ _ (Flows.takeDue _) t h
  case pendingAlarmStart l => exact law.occurring_flows _ _ (Flows.takeDue _) t h
  case alarmCountEnd l => exact law.occurring_flows _ _ (Flows.takeDue _) t h
  case planActivation l => exact law.occurring_flows _ _ (Flows.takeDue _) t h
  case calibrationWaitLimit l => exact law.occurring_flows _ _ (Flows.takeDue _) t h
  case eviction => exact law.occurring_flows _ _ (Flows.of_kept (Kept.runThrough _)) t h
  case warmUpEnd => exact law.occurring_flows _ _ (Flows.of_kept (Kept.runThrough _)) t h
  case queueWalk => exact law.occurring_flows _ _ (Flows.of_kept (Kept.runThrough _)) t h
  case ringDelayed l => exact law.occurring_flows _ _ (Flows.of_kept (Kept.runThrough _)) t h
  case standbyTimeout => exact law.occurring_flows _ _ (Flows.of_kept Kept.runBoundary) t h
  case faultAssertion c => exact law.occurring_flows _ _ (Flows.assertFault c) t h
  case faultRelease c => exact law.occurring_flows _ _ (Flows.releaseFault c) t h
  case firstFaultSample inputs => exact law.occurring_flows _ _ (Flows.updArb _) t h
  all_goals exact (law.offer _).finish t h

end Sys2Proof.Machine

open Sys2Proof Sys2Proof.Machine

/-- Settles O55: every event keeps the law, and so does idling. -/
theorem linkLawIsKept : Obligations.LinkLawIsKept := by
  intro s t law h
  unfold step at h
  split at h
  · cases h
    exact law
  · next i rest _ => exact exec_linkLaw i (s.withPending rest) t law h
end

section
/-! What a hard reset is, and what a marking and a link fault leave (R177, R186, R191). -/

namespace Sys2Proof.Machine

namespace State

/-- A link fault joins the link-fault set (R177); its report touches no other part of the link but its slot and its
set. -/
theorem linkFault_core (c : LinkFault) (s : State) :
    (s.linkFault c).link.core = { s.link with faults := s.link.faults ||| c.bit }.core :=
  (Kept.markDevice _ _).link

/-- A link fault changes the link alone (R177). -/
theorem linkFault_eq (c : LinkFault) (s : State) : s.linkFault c = { s with link := (s.linkFault c).link } :=
  mark_eq _ _ _ _

/-- The data of a LINK report: the cause, the set after it and the stamp (R177, R199). -/
def linkData (c : LinkFault) (s : State) : List Byte :=
  [toByte c.bit.toNat, toByte (s.link.faults ||| c.bit).toNat] ++ stampBytes s.stamp

/-- A link fault is its cause put in the set, and a marking of LINK on the device entry (R177). -/
theorem linkFault_mark (c : LinkFault) (s : State) : s.linkFault c =
    (s.updLink fun k => { k with faults := k.faults ||| c.bit }).mark .link deviceEntry (s.linkData c) := rfl

/-- A disabled kind is not marked (R186). -/
theorem mark_disabled {k : ReportKind} {s : State} (off : kindIn k s.link.mask = false) (e : Fin 17) (d : List Byte) :
    s.mark k e d = s := if_neg (by simp [off])

/-- The pending set of the entry that an enabled kind is marked for (R186). -/
theorem mark_pendingSet {k : ReportKind} {s : State} (on : kindIn k s.link.mask = true) (e : Fin 17) (d : List Byte) :
    (s.mark k e d).link.pendingSets.get e = s.link.pendingSets.get e ||| k.bit := by
  rw [mark, if_pos on, updLink_link, Tab.get_set_self]

end State

end Sys2Proof.Machine

open Sys2Proof Sys2Proof.Machine

/-- Settles O2: the meaning of HARD_RESET, by its definition. -/
theorem hardResetGivesResetState : Obligations.HardResetGivesResetState := exec_hardReset

/-- Settles O9, by what a marking leaves of the marked kind and of every other. -/
theorem markingLatchesEnabledKinds : Obligations.MarkingLatchesEnabledKinds := by
  intro k e d s
  refine ⟨fun off => State.mark_disabled off e d, fun on => ⟨State.mark_slot_self k e d s on,
    State.mark_pending_self k e d s on, fun e' k' other => ?_, (Kept.mark k e d).link, State.mark_eq s k e d⟩⟩
  exact ⟨State.mark_slot_ne k k' e e' d s other.symm, State.mark_pending_ne k k' e e' d s other.symm⟩
end

section
/-! The judging of a frame at a ready link (R180, R194, R195). -/

namespace Sys2Proof.Machine

/-- A kind that no command has names none (R180, check 1). -/
theorem HostCmd.ofCode_eq_none {k : Byte} (h : ∀ c : HostCmd, c.code ≠ k) : HostCmd.ofCode k = none :=
  List.find?_eq_none.mpr fun c _ => by simpa using h c

/-- A command whose length does not fit is refused, and changes nothing (R180, check 2). -/
theorem judge_badLength (c : HostCmd) (p : List Byte) (s : State) (h : lengthFits c p.length = false) :
    s.judge c p = (s, [0x05]) := by
  rw [State.judge, if_neg (by simp [h])]
  rfl

/-- A frame of an unknown kind is answered with BAD_KIND, and changes nothing (R180, check 1). -/
theorem State.answerFrame_badKind {f : Frame} (h : ∀ c : HostCmd, c.code ≠ f.kind) (s : State) :
    s.answerFrame f = (s, ⟨0xFF, f.tag, [0x04, f.kind]⟩) := by
  rw [answerFrame, HostCmd.ofCode_eq_none h]
  rfl

/-- A frame of a command kind is judged, and its reply has that kind plus 0x80 (R180). -/
theorem State.answerFrame_command (c : HostCmd) (tag : Byte) (p : List Byte) (s : State) :
    s.answerFrame ⟨c.code, tag, p⟩ = ((s.judge c p).1, ⟨c.code + 0x80, tag, (s.judge c p).2⟩) := by
  rw [answerFrame, HostCmd.ofCode_code]
  rfl

end Sys2Proof.Machine

open Sys2Proof Sys2Proof.Machine

/-- Settles O4: at a ready link the frame is taken at once, and judged by kind, length and fields before it is carried
out. -/
theorem framesAreJudgedInOrder : Obligations.FramesAreJudgedInOrder := by
  refine ⟨fun k tag p s ready unknown => ?_, fun c tag p s ready => ?_⟩
  · have occurs : (HostCmd.ofCode k).isNone = true := by rw [HostCmd.ofCode_eq_none unknown]; rfl
    calc exec (.badKind k tag p) s = arrival ⟨k, tag, p⟩ s := if_pos occurs
      _ = _ := by rw [State.arrival_ready _ s ready, State.answerFrame_badKind (f := ⟨k, tag, p⟩) unknown]
  · have taken : exec (c.instr tag p) s =
        .next ((s.judge c p).1.replied ⟨c.code + 0x80, tag, (s.judge c p).2⟩) := by
      rw [exec_instr, hostCommand_ready c tag p s ready]
      rfl
    refine ⟨fun length => ?_, fun length o fails => ?_, fun length passes => ?_⟩
    · rw [taken, judge_badLength c p s length]
    · rw [taken, judge_badField c p s o length fails]
    · rw [taken, judge_carried c p s length passes]
end

section
/-! The commands SOFT_RESET (R190) and REPORT_MASK (R188). -/

namespace Sys2Proof.Machine

/-- One line at soft reset: what the resets of its blocks leave of it (R21, R61, R96, R119, R161, R174). -/
theorem Line.softReset_eq (x : Line) : x.softReset = { x with
    hook := ⟨.onhook, 0, 0, 0, 0⟩, test := ⟨false, 0, 0, 0⟩, track := ⟨0, 0⟩
    call := if x.fitted && x.enabled then .idle else .disabled
    saved := none, timer := none, dialBegun := false, digits := ⟨[], false⟩, out := ⟨[], false, false⟩
    alarmCount := 0, alarmPending := none, record := none, completed := none, manner := none
    play := none, run := none, commitPending := false
    calStatus := if x.run = none then x.calStatus else .failed
    calCause := if x.run = none then x.calCause else some .reset } := by
  unfold Line.softReset Line.runReset
  cases running : x.run with
  | none => simp [running, Hook.onhookClear, PartyTest.idle, Tracking.empty, DigitBuffer.empty, OutList.empty]
  | some run => simp [Hook.onhookClear, PartyTest.idle, Tracking.empty, DigitBuffer.empty, OutList.empty]

@[simp] theorem State.line_softReset (l : LineNo) (s : State) : s.softReset.line l = (s.line l).softReset :=
  Tab.get_build _ _

/-- A two-byte set of kinds reads back (R192). -/
theorem maskAt_bytes (code : Byte) (v : BitVec 14) :
    BitVec.ofNat 14 (wordAt (code :: toBytes2 v.toNat) 1) = v := by
  have read : wordAt (code :: toBytes2 v.toNat) 1 = v.toNat := twoBytes_toNat (by omega)
  rw [read, BitVec.ofNat_toNat, BitVec.setWidth_eq]

theorem reportMask_passes {code : Byte} (form : code.toNat ≤ 2) (v : BitVec 14) :
    ∀ k ∈ fieldChecks .reportMask (code :: toBytes2 v.toNat), k.1 = true := by
  have read : wordAt (code :: toBytes2 v.toNat) 1 = v.toNat := twoBytes_toNat (by omega)
  simp only [fieldChecks, List.forall_mem_cons, byteIn_passes_iff, wordIn_passes_iff, read, byteAt_cons_zero]
  exact ⟨⟨Nat.zero_le _, form⟩, ⟨Nat.zero_le _, by omega⟩, List.forall_mem_nil _⟩

/-- The mask replaced, and the kinds that it disables taken out of every pending set (R188). -/
def State.masked (new : BitVec 14) (s : State) : State :=
  s.updLink fun k => { k with mask := new, pendingSets := Tab.build fun e => k.pendingSets.get e &&& new }

/-- REPORT_MASK writes the mask by the form of its code (R188). -/
theorem carryReportMask_eq (code : Byte) (v : BitVec 14) (s : State) :
    s.carryReportMask (code :: toBytes2 v.toNat) =
      let new := (WriteForm.ofCode code.toNat).apply s.link.mask v
      (s.masked new, 0x00 :: toBytes2 new.toNat) := by
  rw [State.carryReportMask, maskAt_bytes]
  rfl

end Sys2Proof.Machine

open Sys2Proof Sys2Proof.Machine

/-- Settles O12: the reset of every block, read off field by field. -/
theorem softResetOfEveryBlock : Obligations.SoftResetOfEveryBlock := by
  intro tag s ready
  refine ⟨s.softReset, exec_carried .softReset tag [] ready rfl (List.forall_mem_nil _) rfl, fun l => ?_, rfl,
    fun l => Tab.get_fill _ _, fun c cs => ?_, rfl, fun e => Tab.get_fill _ _, rfl, rfl, rfl, rfl, rfl, rfl, rfl, rfl⟩
  · rw [State.line_softReset, Line.softReset_eq]
    exact ⟨rfl, rfl, rfl, rfl, rfl, rfl, rfl, rfl, rfl, rfl, rfl, rfl, rfl, rfl, rfl, rfl,
      fun free => ⟨if_pos free, if_pos free⟩, fun running => ⟨if_neg running, if_neg running⟩, rfl⟩
  · simp [State.softReset, Arbiter.softReset]

/-- Settles O13: the payload passes its checks and is read back, and each form gives its mask. -/
theorem reportMaskRemovesDisabledKinds : Obligations.ReportMaskRemovesDisabledKinds := by
  intro tag v s ready form code new written
  have short : code.toNat ≤ 2 := by rcases written with ⟨-, rfl, -⟩ | ⟨-, rfl, -⟩ | ⟨-, rfl, -⟩ <;> decide
  have apply : (WriteForm.ofCode code.toNat).apply s.link.mask v = new := by
    rcases written with ⟨-, rfl, rfl⟩ | ⟨-, rfl, rfl⟩ | ⟨-, rfl, rfl⟩ <;> rfl
  have carried : s.carry .reportMask (code :: toBytes2 v.toNat) = (s.masked new, 0x00 :: toBytes2 new.toNat) := by
    rw [← apply]
    exact carryReportMask_eq code v s
  exact ⟨s.masked new, exec_carried .reportMask tag _ ready rfl (reportMask_passes short v) carried, rfl,
    fun e => Tab.get_build _ _, rfl⟩
end

section
/-! What ends an event where the dispatcher or the transmitter has nothing to do (R178, R179, R183), the rows of the
receive assembler (R176), and a full intake queue. -/

namespace Sys2Proof.Machine

namespace State

variable {s : State}

/-! ### The end of an event -/

/-- The dispatcher takes nothing while the reply queue is full (R179). -/
theorem dispatch_of_full (full : s.link.replies.length = 4) (n : Nat) : s.dispatch n = s := by
  cases n with
  | zero => rfl
  | succ n =>
    unfold dispatch
    split
    · rfl
    · exact if_neg (by simp [full, Config.replyLimit])

/-- A busy transmitter chooses nothing (R183). -/
theorem transmit_of_busy {f : Frame} (busy : s.link.tx = some f) : s.transmit = s := by
  rw [transmit, busy]

/-- Behind a full reply queue and a busy transmitter an event ends with its own effect. -/
theorem settleLink_of_jammed {f : Frame} (full : s.link.replies.length = 4) (busy : s.link.tx = some f) :
    s.settleLink = s := by
  unfold settleLink dispatchAll
  rw [dispatch_of_full full, transmit_of_busy busy, dispatch_of_full full]

/-! ### The intake queue -/

theorem offer_room (f : Frame) (room : s.link.intake.length < 4) :
    s.offer f = s.updLink fun k => { k with intake := k.intake ++ [f] } := if_pos room

theorem offer_full (f : Frame) (full : s.link.intake.length = 4) : s.offer f = s.linkFault .intakeFull :=
  if_neg (by simp [full, Config.intakeLimit])

/-! ### The receive assembler -/

/-- The assembler in another state (R176). -/
def heard (r : Receiver) (s : State) : State := s.updLink fun k => { k with receiver := r }

theorem heard_self {r : Receiver} (h : s.link.receiver = r) : s.heard r = s := by
  rw [← h]
  rfl

/-- A byte does what the assembler's row says (R176). -/
theorem exec_byte {q r : Receiver} {b : Byte} {found : Received} (stands : s.link.receiver = q)
    (row : q.take b = (r, found)) :
    exec (.byteReceived b true) s = finish ((s.heard r).takeReceived found) := by
  have taken : s.receive b = (s.heard r).takeReceived found := by
    rw [receive, stands, row]
    rfl
  rw [← taken]
  rfl

theorem exec_gap (inside : s.link.receiver ≠ .hunt) : exec .gap s = finish ((s.heard .hunt).linkFault .gap) := by
  have timed : s.link.receiver.timed = true := by
    cases stands : s.link.receiver with
    | hunt => exact absurd stands inside
    | length | body | check => rfl
  calc exec .gap s = finish s.gapExpiry := if_pos timed
    _ = _ := by rw [gapExpiry, if_pos timed]; rfl

end State

namespace Receiver

variable {b : Byte} {n sum : Nat} {held : List Byte}

/-- Outside a frame only the start byte is heeded (R176). -/
theorem take_hunt (b : Byte) : hunt.take b = (if b = 0xC3 then length else hunt, .nothing) :=
  (apply_ite (·, Received.nothing) (b = 0xC3) length hunt).symm

theorem take_length (low : 2 ≤ b.toNat) (high : b.toNat ≤ 62) :
    length.take b = (body b.toNat [] b.toNat, .nothing) := if_pos ⟨low, high⟩

theorem take_badLength (out : b.toNat < 2 ∨ 62 < b.toNat) : length.take b = (hunt, .fault .badLength) :=
  if_neg (by omega)

theorem take_body (b : Byte) (n : Nat) (held : List Byte) (sum : Nat) : (body n held sum).take b =
    (if n ≤ (held ++ [b]).length then check (held ++ [b]) (sum + b.toNat) else body n (held ++ [b]) (sum + b.toNat),
      .nothing) := by
  rw [List.length_append, List.length_singleton]
  exact (apply_ite (·, Received.nothing) (n ≤ held.length + 1) (check (held ++ [b]) (sum + b.toNat)) _).symm

theorem take_check (zero : (sum + b.toNat) % 256 = 0) : (check held sum).take b = (hunt, .good (frameOf held)) :=
  if_pos zero

theorem take_badCheck (other : (sum + b.toNat) % 256 ≠ 0) : (check held sum).take b = (hunt, .fault .badCheck) :=
  if_neg other

end Receiver

end Sys2Proof.Machine

open Sys2Proof Sys2Proof.Machine

/-- Settles O5, row by row of the assembler's table. -/
theorem assemblerFollowsItsTable : Obligations.AssemblerFollowsItsTable := by
  refine ⟨fun b s => rfl, fun b s stands => ?_, fun b s stands low high => ?_, fun b s stands out => ?_,
    fun b n held sum s stands => ?_, fun b kind tag p sum s stands zero => ?_, fun b held sum s stands other => ?_,
    fun s inside => State.exec_gap inside, fun s stands => ?_⟩
  · rw [State.exec_byte stands (Receiver.take_hunt b)]
    rfl
  · rw [State.exec_byte stands (Receiver.take_length low high)]
    rfl
  · rw [State.exec_byte stands (Receiver.take_badLength out)]
    rfl
  · rw [State.exec_byte stands (Receiver.take_body b n held sum)]
    rfl
  · rw [State.exec_byte stands (Receiver.take_check zero)]
    rfl
  · rw [State.exec_byte stands (Receiver.take_badCheck other)]
    rfl
  · exact if_neg (by simp [stands, Receiver.timed])

/-- Settles O6: the frame is offered, and nothing moves behind the full reply queue; a link fault is a set bit and a
marking. -/
theorem fullQueuesAndLinkFaults : Obligations.FullQueuesAndLinkFaults := by
  refine ⟨fun c tag p s f full busy => ⟨fun room => ?_, fun dropped => ?_⟩,
    fun c s => ⟨?_, fun on => ?_, fun off => ?_⟩⟩
  · have still := State.settleLink_of_jammed
      (s := s.updLink fun k => { k with intake := k.intake ++ [⟨c.code, tag, p⟩] }) full busy
    rw [exec_instr, hostCommand, arrival, State.offer_room _ room, finish, still]
    rfl
  · have core := s.linkFault_core .intakeFull
    simp only [Link.core, Prod.mk.injEq] at core
    obtain ⟨-, intake, replies, tx, -, -, faults, -⟩ := core
    refine ⟨s.linkFault .intakeFull, ?_, intake, replies, tx, faults, s.linkFault_eq _⟩
    rw [exec_instr, hostCommand, arrival, State.offer_full _ dropped, finish,
      State.settleLink_of_jammed (by rw [replies, full]) (tx.trans busy)]
  · exact congrArg (·.2.2.2.2.2.2.1) (s.linkFault_core c)
  · rw [State.linkFault_mark]
    exact ⟨State.mark_slot_self .link deviceEntry _ (s.updLink _) on, State.mark_pendingSet (s := s.updLink _) on _ _⟩
  · rw [State.linkFault_mark, State.mark_disabled (s := s.updLink _) off]
    rfl
end

section
/-! A command's frame sent byte by byte (R176, R184). -/

namespace Sys2Proof.Machine

/-- With no report pending there is none to send (R185). -/
theorem Link.nextReport_eq_none {k : Link} (silent : ∀ e, k.pendingSets.get e = 0) : k.nextReport = none := by
  have empty : (searchOrder k.lastServed).find? (fun e => (lowestKind (k.pendingSets.get e)).isSome) = none :=
    List.find?_eq_none.mpr fun e _ => by
      rw [silent e]
      decide
  rw [nextReport, empty]

/-- An IDLE transmitter with nothing to send stays IDLE (R183). -/
theorem State.choose_of_nothing {s : State} (replies : s.link.replies = [])
    (silent : ∀ e, s.link.pendingSets.get e = 0) : s.choose = s := by
  rw [choose, replies]
  dsimp only
  rw [Link.nextReport_eq_none silent]

/-- No frame waits, and the transmitter is busy or has nothing to send. -/
def State.quiet (s : State) : Prop :=
  s.link.intake = [] ∧ (s.link.tx ≠ none ∨ (s.link.replies = [] ∧ ∀ e, s.link.pendingSets.get e = 0))

/-- On a quiet link an event ends with its own effect. -/
theorem State.finish_of_quiet {s : State} (h : s.quiet) : finish s = .next s := by
  obtain ⟨intake, sends⟩ := h
  rw [finish_of_empty s intake, transmit]
  cases busy : s.link.tx with
  | some f => rfl
  | none =>
    obtain ⟨replies, silent⟩ := sends.resolve_left (fun on => on busy)
    exact congrArg _ (choose_of_nothing replies silent)

theorem execAll_cons {i : Instr} {s t : State} (h : exec i s = .next t) (is : List Instr) :
    execAll (i :: is) s = execAll is t := by
  rw [execAll, h]

/-- The characters of a run of bytes, each with a good stop bit. -/
def characters (bs : List Byte) : List Instr := bs.map fun b => .byteReceived b true

namespace State

variable {s : State}

/-- A byte that only moves the assembler of a quiet link. -/
theorem execAll_byte (h : s.quiet) {q r : Receiver} {b : Byte} (row : q.take b = (r, .nothing)) (bs : List Byte) :
    execAll (characters (b :: bs)) (s.heard q) = execAll (characters bs) (s.heard r) :=
  execAll_cons ((exec_byte (s := s.heard q) rfl row).trans (finish_of_quiet h)) _

/-- The body of a frame is held byte by byte and added up, and with its last byte the check is awaited (R176). -/
theorem execAll_body (h : s.quiet) (tail : List Byte) {n : Nat} :
    ∀ (b : Byte) (bs held : List Byte) (sum : Nat), n = held.length + (b :: bs).length →
      execAll (characters (b :: bs ++ tail)) (s.heard (.body n held sum)) =
        execAll (characters tail) (s.heard (.check (held ++ b :: bs) (sum + sumBytes (b :: bs))))
  | b, [], held, sum, count => by
    have last : n ≤ (held ++ [b]).length := by simp [count]
    have row := Receiver.take_body b n held sum
    rw [if_pos last] at row
    exact execAll_byte h row tail
  | b, c :: bs, held, sum, count => by
    have more : ¬n ≤ (held ++ [b]).length := by simp [count]
    have row := Receiver.take_body b n held sum
    rw [if_neg more] at row
    have left : n = (held ++ [b]).length + (c :: bs).length := by
      simp only [count, List.length_append, List.length_cons, List.length_nil]
      omega
    have rest := execAll_body h tail c bs (held ++ [b]) (sum + b.toNat) left
    rw [List.append_assoc, Nat.add_assoc] at rest
    exact (execAll_byte h row _).trans rest

/-- The last byte of a good frame offers it to the intake queue (R176). -/
theorem execAll_check {held : List Byte} {sum : Nat} {b : Byte} (zero : (sum + b.toNat) % 256 = 0) :
    execAll (characters [b]) (s.heard (.check held sum)) = finish ((s.heard .hunt).offer (frameOf held)) :=
  execAll_cons (exec_byte (s := s.heard _) rfl (Receiver.take_check zero)) []

end State

/-- The check byte brings the sum of a frame to 0 modulo 256 (R184). -/
theorem Frame.check_sum (f : Frame) : (sumBytes f.summed + f.check.toNat) % 256 = 0 := by
  rw [check, toByte_mod]
  omega

/-- A frame that fits the wire, sent byte by byte into an assembler in HUNT on a quiet link, arrives (R176, R184). -/
theorem Frame.execAll_wire (f : Frame) {s : State} (short : f.payload.length ≤ 60) (hunt : s.link.receiver = .hunt)
    (quiet : s.quiet) : execAll (characters f.wire) s = arrival f s := by
  have size : (toByte (f.payload.length + 2)).toNat = f.payload.length + 2 := toByte_toNat (by omega)
  have length : Receiver.length.take (toByte (f.payload.length + 2)) =
      (.body (f.payload.length + 2) [] (f.payload.length + 2), .nothing) := by
    have row := Receiver.take_length (b := toByte (f.payload.length + 2)) (by omega) (by omega)
    rwa [size] at row
  have zero : (f.payload.length + 2 + sumBytes (f.kind :: f.tag :: f.payload) + f.check.toNat) % 256 = 0 := by
    have sum := f.check_sum
    rwa [summed, sumBytes, size] at sum
  calc execAll (characters f.wire) s
      = execAll (characters f.wire) (s.heard .hunt) := by rw [State.heard_self hunt]
    _ = execAll (characters (f.summed ++ [f.check])) (s.heard .length) :=
        State.execAll_byte quiet (Receiver.take_hunt 0xC3) _
    _ = execAll (characters (f.kind :: f.tag :: f.payload ++ [f.check])) (s.heard (.body _ [] _)) :=
        State.execAll_byte quiet length _
    _ = execAll (characters [f.check]) (s.heard (.check (f.kind :: f.tag :: f.payload) _)) :=
        State.execAll_body quiet _ _ _ _ _ (by simp)
    _ = finish ((s.heard .hunt).offer (frameOf (f.kind :: f.tag :: f.payload))) := State.execAll_check zero
    _ = arrival f s := by
        rw [State.heard_self hunt]
        rfl

end Sys2Proof.Machine

open Sys2Proof Sys2Proof.Machine

/-- Settles O7: the frame arrives with its last byte, and its arrival is the command's row. -/
theorem commandFrameByByteIsCommand : Obligations.CommandFrameByByteIsCommand := by
  intro c tag p s short hunt intake sends
  rw [exec_instr]
  exact Frame.execAll_wire ⟨c.code, tag, p⟩ short hunt ⟨intake, sends⟩
end

section
/-! The transmitter's choice when a frame has been sent (R183, R185, R187), and the frame that gets the freed place
(R179; log 9). -/

namespace Sys2Proof.Machine

/-! ### The next report -/

theorem ReportKind.all_idx : ∀ i : Fin 14, (ReportKind.all[i.val]'i.isLt).idx = i := by decide

/-- The lowest kind of a pending set, by its code (R185). -/
theorem lowestKind_eq_some {m : BitVec 14} {k : ReportKind} (pending : kindIn k m = true)
    (lowest : ∀ j : ReportKind, j.idx < k.idx → kindIn j m = false) : lowestKind m = some k := by
  refine List.find?_eq_some_iff_getElem.mpr ⟨pending, k.idx.val, k.idx.isLt, idx_injective (ReportKind.all_idx k.idx),
    fun i before => ?_⟩
  have below := lowest (ReportKind.all[i]'(before.trans k.idx.isLt)) (by
    rw [ReportKind.all_idx ⟨i, before.trans k.idx.isLt⟩]
    exact before)
  exact congrArg (!·) below

/-- The search visits the entries in order, beginning after the last served one (R185). -/
theorem searchOrder_eq (last : Fin 17) : searchOrder last = (List.finRange 17).map fun i => last + 1 + i := by
  revert last
  decide

/-- The next report is the lowest pending kind of the first entry that has one (R185). -/
theorem Link.nextReport_eq_some {k : Link} {j : Fin 17} {r : ReportKind}
    (before : ∀ i : Fin 17, i < j → k.pendingSets.get (k.lastServed + 1 + i) = 0)
    (pending : kindIn r (k.pendingSets.get (k.lastServed + 1 + j)) = true)
    (lowest : ∀ r' : ReportKind, r'.idx < r.idx → kindIn r' (k.pendingSets.get (k.lastServed + 1 + j)) = false) :
    k.nextReport = some (k.lastServed + 1 + j, r) := by
  have kind := lowestKind_eq_some pending lowest
  have first : (List.finRange 17).find? (fun i => (lowestKind (k.pendingSets.get (k.lastServed + 1 + i))).isSome)
      = some j := by
    refine find_rising (by rw [kind]; rfl) (fun i found => le_of_not_gt fun below => ?_) _ (List.pairwise_lt_finRange 17)
      (List.mem_finRange j)
    rw [before i below] at found
    exact absurd found (by decide)
  rw [nextReport, searchOrder_eq, List.find?_map]
  simp only [Function.comp_def, first, Option.map_some, kind]

/-- A kind taken out of a pending set (R185). -/
theorem kindIn_without (j r : ReportKind) (m : BitVec 14) :
    kindIn j (m &&& ~~~r.bit) = (kindIn j m && !kindIn j r.bit) := by
  simp [kindIn, j.idx.isLt]

namespace State

variable (e : Fin 17) (r : ReportKind) (s : State)

/-- Of the link the choice of a kind touches the link-fault set, for LINK (R187). -/
theorem chosen_link : (s.chosen e r).link = { s.link with faults := if r = .link then 0 else s.link.faults } := by
  cases r
  case digits =>
    unfold chosen
    dsimp only
    split <;> rfl
  all_goals rfl

/-- Of the lines the choice of a kind empties the list of the entry's line, for DIGITS (R187). -/
theorem line_chosen (l : LineNo) : (s.chosen e r).line l =
    if r = .digits ∧ e = lineEntry l then { s.line l with out := ⟨[], false, false⟩ } else s.line l := by
  have named : ∀ low : e.val < 16, l = ⟨e.val, low⟩ ↔ e = lineEntry l := fun low => by
    rw [Fin.ext_iff, Fin.ext_iff]
    exact eq_comm
  cases r
  case digits =>
    unfold chosen
    dsimp only
    split
    · next low =>
      simp only [line_updLine, named low, true_and]
      split
      · next here => rw [← (named low).mpr here]; rfl
      · rfl
    · next device =>
      have other : e ≠ lineEntry l := fun here => device (here ▸ l.isLt)
      simp [other]
  all_goals simp [chosen]

/-- The link after a report has been chosen (R185 to R187). -/
theorem sendReport_link : (s.sendReport e r).link = { s.link with
    tx := some ⟨r.code, 0, ((s.link.slots.get e).get r.idx).getD []⟩
    lastServed := e
    pendingSets := s.link.pendingSets.set e (s.link.pendingSets.get e &&& ~~~r.bit)
    faults := if r = .link then 0 else s.link.faults } := chosen_link _ _ _

/-! ### A frame sent -/

variable {s}

theorem exec_frameSent {f : Frame} (busy : s.link.tx = some f) : exec .frameSent s = finish s.frameDone :=
  if_pos (by simp [busy])

/-- With no frame waiting the transmitter's choice is all that follows (R183). -/
theorem exec_frameSent_empty {f : Frame} (busy : s.link.tx = some f) (intake : s.link.intake = []) :
    exec .frameSent s = .next s.frameDone.choose :=
  (exec_frameSent busy).trans (finish_of_empty s.frameDone intake)

theorem choose_reply {r : Frame} {rs : List Frame} (replies : s.link.replies = r :: rs) :
    s.choose = s.updLink fun k => { k with tx := some r, replies := rs } := by
  rw [choose, replies]

theorem choose_report {e : Fin 17} {r : ReportKind} (replies : s.link.replies = [])
    (next : s.link.nextReport = some (e, r)) : s.choose = s.sendReport e r := by
  rw [choose, replies]
  dsimp only
  rw [next]

/-- A frame taken into the last free place of the reply queue is the last one taken (R179). -/
theorem dispatch_last {f : Frame} {fs : List Frame} (waiting : s.link.intake = f :: fs)
    (place : s.link.replies.length = 3) (n : Nat) :
    s.dispatch (n + 1) =
      let u := s.updLink fun k => { k with intake := fs }
      (u.answerFrame f).1.pushReply (u.answerFrame f).2 := by
  have answered := Flows.answerFrame (s := s.updLink fun k => { k with intake := fs }) f
  rw [dispatch, waiting]
  dsimp only
  rw [if_pos (by simp [place, Config.replyLimit])]
  exact dispatch_of_full (by simp [pushReply, answered.replies, place]) n

/-- A reply joins the queue of a state to which the flow of frames has led unchanged. -/
theorem pushReply_flows {u t : State} (h : Flows u t) (r : Frame) : t.pushReply r =
    { t with link := { t.link with
      tx := u.link.tx, intake := u.link.intake, replies := u.link.replies ++ [r] } } := by
  rw [← h.tx, ← h.intake, ← h.replies]
  rfl

/-- The state in which a waiting frame is judged in the place that the chosen reply frees (R179, R183). -/
def freed (r : Frame) (rs fs : List Frame) (s : State) : State :=
  { s with link := { s.link with tx := some r, replies := rs, intake := fs } }

/-- Behind a full reply queue, a frame sent lets the reply at the head go and the waiting frame in (R179, R183). -/
theorem exec_frameSent_full {sent f r : Frame} {fs rs : List Frame} (busy : s.link.tx = some sent)
    (waiting : s.link.intake = f :: fs) (replies : s.link.replies = r :: rs) (full : s.link.replies.length = 4) :
    exec .frameSent s =
      .next (((s.freed r rs fs).answerFrame f).1.pushReply ((s.freed r rs fs).answerFrame f).2) := by
  have place : rs.length = 3 := by
    rw [replies, List.length_cons] at full
    omega
  have sends : s.frameDone.transmit = s.frameDone.updLink fun k => { k with tx := some r, replies := rs } :=
    choose_reply (s := s.frameDone) replies
  have silent : s.frameDone.dispatchAll = s.frameDone := dispatch_of_full (s := s.frameDone) full _
  rw [exec_frameSent busy, finish, settleLink, silent, sends]
  exact congrArg _ (dispatch_last (s := s.frameDone.updLink fun k => { k with tx := some r, replies := rs })
    waiting place 3)

end State

end Sys2Proof.Machine

open Sys2Proof Sys2Proof.Machine

/-- Settles O8: a frame behind the full queue is answered in the freed place, as its judging says; with none waiting the
transmitter's choice stands. -/
theorem frameSentChoosesNext : Obligations.FrameSentChoosesNext := by
  refine ⟨fun s sent f fs r rs busy waiting replies full => ?_, fun s f busy intake =>
    ⟨fun r rs replies => ?_, fun replies silent => ?_, fun j k replies before pending lowest => ?_⟩⟩
  · intro u answers
    have answered : ∀ (t : State) (k : Byte) (d : List Byte), Flows u t →
        u.answerFrame f = (t, ⟨k, f.tag, d⟩) → answers t k d := fun t k d flows judged => by
      have sent' := State.exec_frameSent_full busy waiting replies full
      rw [show s.freed r rs fs = u from rfl, judged, State.pushReply_flows flows] at sent'
      exact sent'
    refine ⟨fun unknown => answered _ _ _ (.refl u) (State.answerFrame_badKind unknown u), fun c named => ?_⟩
    have judged : u.answerFrame f = ((u.judge c f.payload).1, ⟨f.kind + 0x80, f.tag, (u.judge c f.payload).2⟩) := by
      have command := State.answerFrame_command c f.tag f.payload u
      rwa [named] at command
    refine ⟨fun length => answered _ _ _ (.refl u) ?_, fun length o fails => answered _ _ _ (.refl u) ?_,
      fun length passes => answered _ _ _ (Flows.carry c f.payload) ?_⟩
    · rw [judged, judge_badLength c _ u length]
    · rw [judged, judge_badField c _ u o length fails]
    · rw [judged, judge_carried c _ u length passes]
  · rw [State.exec_frameSent_empty busy intake, State.choose_reply (s := s.frameDone) replies]
    rfl
  · rw [State.exec_frameSent_empty busy intake, State.choose_of_nothing (s := s.frameDone) replies silent]
    rfl
  · have next : s.frameDone.link.nextReport = some (s.link.lastServed + 1 + j, k) :=
      Link.nextReport_eq_some (k := s.frameDone.link) before pending lowest
    have link := State.sendReport_link (s.link.lastServed + 1 + j) k s.frameDone
    refine ⟨s.frameDone.sendReport (s.link.lastServed + 1 + j) k, ?_, ?_⟩
    · rw [State.exec_frameSent_empty busy intake, State.choose_report (s := s.frameDone) replies next]
    rw [link]
    refine ⟨rfl, rfl, ?_, fun k' other => ?_, fun e other => Tab.get_set_ne _ _ other, rfl, replies, rfl, fun l => ?_⟩
    · rw [Tab.get_set_self, kindIn_without, (kindIn_bit k k).mpr rfl]
      exact Bool.and_false _
    · have out : kindIn k' k.bit = false := Bool.eq_false_iff.mpr fun same => other ((kindIn_bit k k').mp same)
      rw [Tab.get_set_self, kindIn_without, out]
      exact Bool.and_true _
    · exact State.line_chosen _ _ _ l
end

section
/-! A step and the queue (log 1, 2): what the step does, by the queue's front. -/

namespace Sys2Proof.Machine

variable {s : State}

/-- Of two queues given in turn the later one stands. -/
@[simp] theorem State.withPending_withPending (q r : List Instr) (s : State) :
    (s.withPending q).withPending r = s.withPending r := rfl

/-- A step on an empty queue idles (log 2). -/
theorem step_of_empty (empty : s.pending = []) : step s = .next s := by
  rw [step, empty]

/-- A step takes the front command off the queue and carries it out (log 1). -/
theorem step_of_front {c : Instr} {rest : List Instr} (front : s.pending = c :: rest) :
    step s = exec c (s.withPending rest) := by
  rw [step, front]

end Sys2Proof.Machine

open Sys2Proof Sys2Proof.Machine

/-- Settles O1: a queue is empty or has a front command, and the queue given is the one that the step finds. -/
theorem stepTakesTheFrontCommand : Obligations.StepTakesTheFrontCommand := by
  refine ⟨fun c rest s => ?_, fun s empty => step_of_empty empty⟩
  calc step (s.withPending (c :: rest))
    _ = exec c ((s.withPending (c :: rest)).withPending rest) := step_of_front (State.withPending_pending s (c :: rest))
    _ = exec c (s.withPending rest) := by rw [State.withPending_withPending]
end
